-- ==== Sys2Proof/Word.lean ====
section
/-! DEFINITION. The words, sample pairs and closed name sets that cross the block's boundary (spec/00_scope.md, spec/30_encoding.md). -/

namespace Sys2Proof

/-- A 32-bit word: a command word, an operand word or a sample word (R9, R91). -/
abbrev Word := BitVec 32

/-- A stereo pair, left member first (R14, R62); each member is a sample word read as `s32` (R98). -/
structure Pair where
  l : Word
  r : Word
deriving DecidableEq, Repr, Inhabited

/-- A block: its pairs oldest first (R14, R62). Its length counts pairs. -/
abbrev Block := List Pair

/-- The pair of two zero samples. -/
def Pair.zero : Pair := ⟨0, 0⟩

/-- The eight canonical sample rates (R6, R96). `Option Rate` is a rate code: `none` is code 0, "no rate". -/
inductive Rate
  | r44100 | r48000 | r88200 | r96000 | r176400 | r192000 | r352800 | r384000
deriving DecidableEq, Repr, Inhabited

/-- The three bit depths (R6, R97). `Option Depth` is a depth code: `none` is code 0, "no depth". -/
inductive Depth
  | d16 | d24 | d32
deriving DecidableEq, Repr, Inhabited

/-- The two rate families, which are also the rate groups of a block (R8, R35). -/
inductive Family
  | f441 | f48
deriving DecidableEq, Repr, Inhabited

/-- The three stages of the cascade (R30, R141). -/
inductive Stage
  | s0 | s1 | s2
deriving DecidableEq, Repr, Inhabited

/-- One value for each canonical rate. -/
structure PerRate (α : Type) where
  r44100 : α
  r48000 : α
  r88200 : α
  r96000 : α
  r176400 : α
  r192000 : α
  r352800 : α
  r384000 : α
deriving DecidableEq, Repr, Inhabited

/-- One value for each bit depth. -/
structure PerDepth (α : Type) where
  d16 : α
  d24 : α
  d32 : α
deriving DecidableEq, Repr, Inhabited

/-- One value for each stage of the cascade. -/
structure PerStage (α : Type) where
  s0 : α
  s1 : α
  s2 : α
deriving DecidableEq, Repr, Inhabited

/-- The value held for one rate. -/
def PerRate.get {α : Type} (t : PerRate α) : Rate → α
  | .r44100 => t.r44100
  | .r48000 => t.r48000
  | .r88200 => t.r88200
  | .r96000 => t.r96000
  | .r176400 => t.r176400
  | .r192000 => t.r192000
  | .r352800 => t.r352800
  | .r384000 => t.r384000

/-- The value held for one depth. -/
def PerDepth.get {α : Type} (t : PerDepth α) : Depth → α
  | .d16 => t.d16
  | .d24 => t.d24
  | .d32 => t.d32

/-- The value held for one stage. -/
def PerStage.get {α : Type} (t : PerStage α) : Stage → α
  | .s0 => t.s0
  | .s1 => t.s1
  | .s2 => t.s2

/-- Replace the value held for one stage. -/
def PerStage.set {α : Type} (t : PerStage α) (s : Stage) (v : α) : PerStage α :=
  match s with
  | .s0 => { t with s0 := v }
  | .s1 => { t with s1 := v }
  | .s2 => { t with s2 := v }

end Sys2Proof
end

