-- ==== Sys2Proof/Syntax.lean ====
section
/-! DEFINITION. The operations of the block: one constructor per row of spec/opcode_table.json (R2, R94), with its command word's fields, its operand words and its payload. -/

namespace Sys2Proof

/-- One command, as delivered: the fields of its command word, its operand words and its payload (R91, R94).
A payload's length is the command word's `imm` field, so it is not written twice. -/
inductive Instr
  /-- `FVO ; word_width, bit_width` (R123). -/
  | fvo (wordWidth bitWidth : Word)
  /-- `FVD ; rate_hz, depth_bits` (R124). -/
  | fvd (rateHz depthBits : Word)
  /-- `FVT` (R125). -/
  | fvt
  /-- `OSR s`, the zero-length shape of `OSS` (R142). -/
  | osr (stage : BitVec 4)
  /-- `OSS s, len ; ; block`, `len` at least 1 (R143). -/
  | oss (stage : BitVec 4) (block : Block)
  /-- `OSA rc, len ; ; block` (R144). -/
  | osa (rateCode : BitVec 4) (block : Block)
  /-- `OSZ` (R145). -/
  | osz
  /-- `QEN g, len ; ; block` (R161). -/
  | qen (group : Family) (block : Block)
  /-- `QDE` (R162). -/
  | qde
  /-- `QOC` (R163). -/
  | qoc
  /-- `QTS` (R164). -/
  | qts
  /-- `QRS` (R165). -/
  | qrs
  /-- `DSE ; left, right` (R184). -/
  | dse (left right : Word)
  /-- `DSZ` (R186). -/
  | dsz
  /-- `FBC` (R201). -/
  | fbc
  /-- `FBU ; tick_count` (R202). -/
  | fbu (tickCount : Word)
  /-- `FBR` (R203). -/
  | fbr
  /-- `PCY len ; tick_count ; raw block` (R224). -/
  | pcy (tickCount : Word) (raw : Block)
  /-- `CCY` (R228). -/
  | ccy
  /-- `INIT` (R232). -/
  | init
  /-- `RDS n` (R236). -/
  | rds (number : BitVec 16)
deriving DecidableEq, Repr

/-- The rows of the opcode map (R94), by mnemonic. -/
inductive Row
  | fvo | fvd | fvt | osr | oss | osa | osz | qen | qde | qoc | qts | qrs
  | dse | dsz | fbc | fbu | fbr | pcy | ccy | init | rds
deriving DecidableEq, Repr, Inhabited

/-- The row an operation belongs to. -/
def Instr.row : Instr → Row
  | .fvo _ _ => .fvo
  | .fvd _ _ => .fvd
  | .fvt => .fvt
  | .osr _ => .osr
  | .oss _ _ => .oss
  | .osa _ _ => .osa
  | .osz => .osz
  | .qen _ _ => .qen
  | .qde => .qde
  | .qoc => .qoc
  | .qts => .qts
  | .qrs => .qrs
  | .dse _ _ => .dse
  | .dsz => .dsz
  | .fbc => .fbc
  | .fbu _ => .fbu
  | .fbr => .fbr
  | .pcy _ _ => .pcy
  | .ccy => .ccy
  | .init => .init
  | .rds _ => .rds

end Sys2Proof
end

