-- ==== Sys2Proof/WellFormed.lean ====
section
/-! DEFINITION. Which terms of `Instr` a command word can carry (R92, R93): a length must fit the 16-bit `imm` field, and the zero-length `OSS` is `OSR`. -/

namespace Sys2Proof

/-- A block whose length the 16-bit `imm` field can carry (R92). -/
abbrev Block.fitsLength (b : Block) : Prop := b.length < 65536

/-- The well-formed operations: each has exactly one command word (R93, R94). The ranges that an operation checks
when it executes (stage 3 to 15, rate code 0 and 9 to 15, register number above 13, a block wider than `FRAME_MAX`)
are no part of it: such a command decodes and is refused (R104). -/
def Instr.WellFormed : Instr → Prop
  | .oss _ b => b ≠ [] ∧ b.fitsLength
  | .osa _ b => b.fitsLength
  | .qen _ b => b.fitsLength
  | .pcy _ b => b.fitsLength
  | .fvo _ _ | .fvd _ _ | .fvt | .osr _ | .osz | .qde | .qoc | .qts | .qrs | .dse _ _ | .dsz
  | .fbc | .fbu _ | .fbr | .ccy | .init | .rds _ => True

/-- `Instr.WellFormed` as a test. -/
def Instr.wellFormed : Instr → Bool
  | .oss _ b => !b.isEmpty && decide b.fitsLength
  | .osa _ b => decide b.fitsLength
  | .qen _ b => decide b.fitsLength
  | .pcy _ b => decide b.fitsLength
  | .fvo _ _ | .fvd _ _ | .fvt | .osr _ | .osz | .qde | .qoc | .qts | .qrs | .dse _ _ | .dsz
  | .fbc | .fbu _ | .fbr | .ccy | .init | .rds _ => true

/-- The test decides the predicate. -/
theorem Instr.wellFormed_iff (i : Instr) : i.wellFormed = true ↔ i.WellFormed := by
  cases i <;> simp [Instr.wellFormed, Instr.WellFormed]

end Sys2Proof
end

