-- ==== Sys2Proof/Decode.lean ====
section
/-! DEFINITION. The command word's fields, the opcode map, the decoder over the word stream of a port, and the encoder (spec/30_encoding.md R91 to R105). -/

namespace Sys2Proof

/-- The fields of a command word (R92). -/
structure Fields where
  op : BitVec 8
  a : BitVec 4
  b : BitVec 4
  imm : BitVec 16
deriving DecidableEq, Repr

/-- `op[31:24] a[23:20] b[19:16] imm[15:0]` (R92). -/
def Fields.ofWord (w : Word) : Fields :=
  { op := w.extractLsb' 24 8, a := w.extractLsb' 20 4, b := w.extractLsb' 16 4, imm := w.extractLsb' 0 16 }

/-- The command word that holds the fields (R92). -/
def Fields.toWord (f : Fields) : Word := f.op ++ f.a ++ f.b ++ f.imm

/-- The formats of R93; `reset` is format `S` with `imm` = 0, the shape of `OSR` (R94). -/
inductive Format
  | z | reset | s | r | g | l | c
deriving DecidableEq, Repr

/-- Whether every field the format does not use is 0 (R93). -/
def Format.accepts (fmt : Format) (f : Fields) : Bool :=
  match fmt with
  | .z => f.a == 0 && f.b == 0 && f.imm == 0
  | .reset => f.b == 0 && f.imm == 0
  | .s => f.b == 0
  | .r => f.b == 0
  | .g => (f.a == 0 || f.a == 1) && f.b == 0
  | .l => f.a == 0 && f.b == 0
  | .c => f.a == 0 && f.b == 0

/-- The opcode column of R94. -/
def Row.op : Row → BitVec 8
  | .fvo => 0x10
  | .fvd => 0x11
  | .fvt => 0x12
  | .osr => 0x20
  | .oss => 0x20
  | .osa => 0x21
  | .osz => 0x22
  | .qen => 0x30
  | .qde => 0x31
  | .qoc => 0x32
  | .qts => 0x33
  | .qrs => 0x34
  | .dse => 0x40
  | .dsz => 0x41
  | .fbc => 0x50
  | .fbu => 0x51
  | .fbr => 0x52
  | .pcy => 0x60
  | .ccy => 0x61
  | .init => 0x70
  | .rds => 0x71

/-- The format column of R94. -/
def Row.format : Row → Format
  | .osr => .reset
  | .oss => .s
  | .osa => .r
  | .qen => .g
  | .pcy => .l
  | .rds => .c
  | .fvo | .fvd | .fvt | .osz | .qde | .qoc | .qts | .qrs | .dse | .dsz | .fbc | .fbu | .fbr | .ccy | .init => .z

/-- The match column of R94. -/
def Row.pattern : Row → Word
  | .fvo => 0x10000000
  | .fvd => 0x11000000
  | .fvt => 0x12000000
  | .osr => 0x20000000
  | .oss => 0x20000000
  | .osa => 0x21000000
  | .osz => 0x22000000
  | .qen => 0x30000000
  | .qde => 0x31000000
  | .qoc => 0x32000000
  | .qts => 0x33000000
  | .qrs => 0x34000000
  | .dse => 0x40000000
  | .dsz => 0x41000000
  | .fbc => 0x50000000
  | .fbu => 0x51000000
  | .fbr => 0x52000000
  | .pcy => 0x60000000
  | .ccy => 0x61000000
  | .init => 0x70000000
  | .rds => 0x71000000

/-- The mask column of R94. -/
def Row.mask : Row → Word
  | .osr => 0xFF0FFFFF
  | .oss => 0xFF0F0000
  | .osa => 0xFF0F0000
  | .qen => 0xFFEF0000
  | .pcy => 0xFFFF0000
  | .rds => 0xFFFF0000
  | .fvo | .fvd | .fvt | .osz | .qde | .qoc | .qts | .qrs | .dse | .dsz | .fbc | .fbu | .fbr | .ccy | .init =>
    0xFFFFFFFF

/-- The rows in the order a decoder tries them: `OSR` before `OSS` (R94). -/
def Row.all : List Row :=
  [.fvo, .fvd, .fvt, .osr, .oss, .osa, .osz, .qen, .qde, .qoc, .qts, .qrs, .dse, .dsz, .fbc, .fbu, .fbr,
   .pcy, .ccy, .init, .rds]

/-- How many operand words follow the command word (R94). -/
def Row.operandWords : Row → Nat
  | .fvo | .fvd | .dse => 2
  | .fbu | .pcy => 1
  | .fvt | .osr | .oss | .osa | .osz | .qen | .qde | .qoc | .qts | .qrs | .dsz | .fbc | .fbr | .ccy | .init | .rds => 0

/-- How many pairs of payload follow the operand words: `imm` for the operations that take a block (R91, R94). -/
def Row.payloadPairs (row : Row) (f : Fields) : Nat :=
  match row with
  | .oss | .osa | .qen | .pcy => f.imm.toNat
  | .fvo | .fvd | .fvt | .osr | .osz | .qde | .qoc | .qts | .qrs | .dse | .dsz | .fbc | .fbu | .fbr | .ccy | .init
  | .rds => 0

/-- Why no command is read from a port's word stream. -/
inductive DecodeError
  /-- The stream is empty: no command has arrived. -/
  | noCommand
  /-- The operand words or the payload have not all arrived; the port delivers a whole command or nothing (R64). -/
  | incomplete
  /-- No row has this `op` (R104). -/
  | unassignedOpcode
  /-- The `op` is assigned and a field its format does not use is not 0 (R104). -/
  | unusedFieldNotZero
deriving DecidableEq, Repr

/-- The row that a command word's fields select: the first whose opcode and format agree (R93, R94, R104). -/
def rowOf (f : Fields) : Except DecodeError Row :=
  match Row.all.find? (fun row => row.op == f.op && row.format.accepts f) with
  | some row => .ok row
  | none => if Row.all.any (fun row => row.op == f.op) then .error .unusedFieldNotZero else .error .unassignedOpcode

/-- `n` payload pairs from the front of a stream, left word first (R62, R91), and what follows; `none` when they have
not all arrived. -/
def splitPairs : Nat → List Word → Option (Block × List Word)
  | 0, ws => some ([], ws)
  | n + 1, l :: r :: ws =>
    match splitPairs n ws with
    | some (b, rest) => some (⟨l, r⟩ :: b, rest)
    | none => none
  | _ + 1, _ => none

/-- `c` chunks of 256 pairs, as `splitPairs (256 * c)` reads them; so written that evaluating it on a full-length
payload nests no deeper than a chunk. -/
def splitChunks : Nat → List Word → Option (Block × List Word)
  | 0, ws => some ([], ws)
  | c + 1, ws =>
    match splitPairs 256 ws with
    | none => none
    | some (b, ws') =>
      match splitChunks c ws' with
      | none => none
      | some (b', rest) => some (b ++ b', rest)

/-- `splitPairs n`, chunk by chunk. -/
def takePairs (n : Nat) (ws : List Word) : Option (Block × List Word) :=
  match splitChunks (n / 256) ws with
  | none => none
  | some (b, ws') =>
    match splitPairs (n % 256) ws' with
    | none => none
    | some (b', rest) => some (b ++ b', rest)

/-- A command that is its command word alone. -/
def noOperand (i : Instr) (ws : List Word) : Except DecodeError (Instr × List Word) := .ok (i, ws)

/-- A command with one operand word. -/
def oneOperand (i : Word → Instr) : List Word → Except DecodeError (Instr × List Word)
  | x :: ws => .ok (i x, ws)
  | [] => .error .incomplete

/-- A command with two operand words, in the order its row lists them (R62). -/
def twoOperands (i : Word → Word → Instr) : List Word → Except DecodeError (Instr × List Word)
  | x :: y :: ws => .ok (i x y, ws)
  | _ => .error .incomplete

/-- A command with a payload of `n` pairs. -/
def withPayload (n : Nat) (i : Block → Instr) (ws : List Word) : Except DecodeError (Instr × List Word) :=
  match takePairs n ws with
  | some (b, rest) => .ok (i b, rest)
  | none => .error .incomplete

/-- A command with one operand word and then a payload of `n` pairs. -/
def operandThenPayload (n : Nat) (i : Word → Block → Instr) : List Word → Except DecodeError (Instr × List Word)
  | x :: ws => withPayload n (i x) ws
  | [] => .error .incomplete

/-- The rate group of format `G`: bit 20, the lowest bit of `a` (R93). -/
def groupOf (a : BitVec 4) : Family := if a.getLsbD 0 then .f48 else .f441

/-- Read the operand words and the payload that the row asks for (R91, R105). -/
def readCommand (row : Row) (f : Fields) (ws : List Word) : Except DecodeError (Instr × List Word) :=
  match row with
  | .fvo => twoOperands .fvo ws
  | .fvd => twoOperands .fvd ws
  | .fvt => noOperand .fvt ws
  | .osr => noOperand (.osr f.a) ws
  | .oss => withPayload f.imm.toNat (.oss f.a) ws
  | .osa => withPayload f.imm.toNat (.osa f.a) ws
  | .osz => noOperand .osz ws
  | .qen => withPayload f.imm.toNat (.qen (groupOf f.a)) ws
  | .qde => noOperand .qde ws
  | .qoc => noOperand .qoc ws
  | .qts => noOperand .qts ws
  | .qrs => noOperand .qrs ws
  | .dse => twoOperands .dse ws
  | .dsz => noOperand .dsz ws
  | .fbc => noOperand .fbc ws
  | .fbu => oneOperand .fbu ws
  | .fbr => noOperand .fbr ws
  | .pcy => operandThenPayload f.imm.toNat .pcy ws
  | .ccy => noOperand .ccy ws
  | .init => noOperand .init ws
  | .rds => noOperand (.rds f.imm) ws

/-- Read the next command from a port's word stream: the operation and the words after it, or by name why none is
read (R91, R104, R105). Total on every stream. -/
def decode : List Word → Except DecodeError (Instr × List Word)
  | [] => .error .noCommand
  | w :: ws =>
    match rowOf (Fields.ofWord w) with
    | .ok row => readCommand row (Fields.ofWord w) ws
    | .error e => .error e

/-- The `a` field of format `G` (R93). -/
def groupField : Family → BitVec 4
  | .f441 => 0
  | .f48 => 1

/-- The `a` field of an operation's command word (R93). -/
def Instr.fieldA : Instr → BitVec 4
  | .osr s => s
  | .oss s _ => s
  | .osa rc _ => rc
  | .qen g _ => groupField g
  | .fvo _ _ | .fvd _ _ | .fvt | .osz | .qde | .qoc | .qts | .qrs | .dse _ _ | .dsz
  | .fbc | .fbu _ | .fbr | .pcy _ _ | .ccy | .init | .rds _ => 0

/-- The payload of an operation. -/
def Instr.payload : Instr → Block
  | .oss _ b => b
  | .osa _ b => b
  | .qen _ b => b
  | .pcy _ b => b
  | .fvo _ _ | .fvd _ _ | .fvt | .osr _ | .osz | .qde | .qoc | .qts | .qrs | .dse _ _ | .dsz
  | .fbc | .fbu _ | .fbr | .ccy | .init | .rds _ => []

/-- The `imm` field of an operation's command word: its payload's length in pairs, or a register number (R93). -/
def Instr.fieldImm : Instr → BitVec 16
  | .rds n => n
  | .oss _ b => BitVec.ofNat 16 b.length
  | .osa _ b => BitVec.ofNat 16 b.length
  | .qen _ b => BitVec.ofNat 16 b.length
  | .pcy _ b => BitVec.ofNat 16 b.length
  | .fvo _ _ | .fvd _ _ | .fvt | .osr _ | .osz | .qde | .qoc | .qts | .qrs | .dse _ _ | .dsz
  | .fbc | .fbu _ | .fbr | .ccy | .init => 0

/-- The operand words of an operation, in order (R94). -/
def Instr.operands : Instr → List Word
  | .fvo x y => [x, y]
  | .fvd x y => [x, y]
  | .dse x y => [x, y]
  | .fbu t => [t]
  | .pcy t _ => [t]
  | .fvt | .osr _ | .oss _ _ | .osa _ _ | .osz | .qen _ _ | .qde | .qoc | .qts | .qrs | .dsz
  | .fbc | .fbr | .ccy | .init | .rds _ => []

/-- The command word's fields of an operation. -/
def Instr.fields (i : Instr) : Fields := { op := i.row.op, a := i.fieldA, b := 0, imm := i.fieldImm }

/-- The words of a block, left word first for each pair (R62, R98). -/
def Block.words : Block → List Word
  | [] => []
  | p :: b => p.l :: p.r :: Block.words b

/-- The words of an operation: command word, operand words, payload (R91). -/
def encode (i : Instr) : List Word := i.fields.toWord :: (i.operands ++ Block.words i.payload)

/-- The first `n` 32-bit words of a bit string whose bit 0 is the least significant bit of its first word. -/
def wordsOf : Nat → Nat → List Word
  | 0, _ => []
  | n + 1, w => BitVec.ofNat 32 w :: wordsOf n (w / 4294967296)

/-- How many words the command with this command word takes; one where no row matches (R91, R104). -/
def commandLength (w : Word) : Nat :=
  match rowOf (Fields.ofWord w) with
  | .ok row => 1 + row.operandWords + 2 * row.payloadPairs (Fields.ofWord w)
  | .error _ => 1

/-- The words of the table's instruction `w`: its `nbits` bits, and zeros in every word above them. -/
def tableWords (nbits w : Nat) : List Word :=
  wordsOf (commandLength (BitVec.ofNat 32 (w % 2 ^ nbits))) (w % 2 ^ nbits)

/-- What the decoder reads from the table's instruction `w` of `nbits` bits. -/
def decodeTableWord (nbits w : Nat) : Option Instr :=
  match decode (tableWords nbits w) with
  | .ok (i, _) => some i
  | .error _ => none

end Sys2Proof
end

