-- ==== Sys2Proof/Config.lean ====
section
/-! DEFINITION. The configuration record `cfg` (R6, R7), the device's values of it, and the free values of what the spec leaves unspecified. -/

namespace Sys2Proof

/-- The constants of one stage of the cascade (R7, R141): `H` distinct coefficients, nearest the centre first,
and the right shift. -/
structure StageConfig where
  /-- `H[s]`, the number of distinct coefficients; the stage has `2 * H[s]` taps. -/
  taps : Nat
  /-- `COEF[s][0 .. H[s]-1]`. -/
  coef : List Int
  /-- `SH[s]`. -/
  shift : Nat
deriving DecidableEq, Repr, Inhabited

/-- The build-time configuration record of R6 and R7. It is raw: `INIT` checks the invariants of R233 on it.
Plain data, so that a state that carries it can be written out. -/
structure Config where
  /-- `N_SLOTS`, the queue capacity in frames. -/
  nSlots : Nat
  /-- `PLAY_THRESHOLD`, the occupancy at which `MUTED` ends. -/
  playThreshold : Nat
  /-- `BACKPRESSURE_LEVEL`, the occupancy at which a new block loses pairs. -/
  backpressureLevel : Nat
  /-- How many pairs it then loses: "one pair", a named constant with no name in R6's table (R166,
  93_implementation_defined.md section 2). -/
  backpressurePairs : Nat
  /-- `FRAME_MAX`, the widest frame, in pairs. -/
  frameMax : Nat
  /-- `SILENCE_LEN`, pairs of silence per muted consumer cycle. -/
  silenceLen : Nat
  /-- `H`, `COEF`, `SH` of each stage. -/
  stage : PerStage StageConfig
  /-- `F_REF`. -/
  fRef : Nat
  /-- `FV_WORD_PERIODS`. -/
  fvWordPeriods : Nat
  /-- `FV_BIT_PERIODS`. -/
  fvBitPeriods : Nat
  /-- `RATIO[d]`. -/
  ratio : PerDepth Nat
  /-- `FV_TOL_PPM`, the rate tolerance of the validator. -/
  fvTolPpm : Nat
  /-- `CLAMP`, the saturation bound of interpolated samples. -/
  clampBound : Nat
  /-- `DS_M`, the noise-shaping order. -/
  dsM : Nat
  /-- `DS_W`, the width of a code. -/
  dsW : Nat
  /-- `DS_N`, codes per output word. -/
  dsN : Nat
  /-- `DS_LERP`: 1 interpolates, 0 holds. -/
  dsLerp : Nat
  /-- `DS_IN_BITS`. -/
  dsInBits : Nat
  /-- `INT_BITS`. -/
  intBits : Nat
  /-- `NOMINAL(rate, depth)`, "a fixed lookup". -/
  nominal : PerRate (PerDepth Nat)
  /-- `FB_TARGET(rate)`. -/
  fbTarget : PerRate Nat
  /-- `FB_ERR_SCALE`. -/
  fbErrScale : Nat
  /-- `FB_ERR_LIMIT`, the clamp of the feedback error. -/
  fbErrLimit : Nat
  /-- `FB_BAND_PPM`, the half-width of the feedback band. -/
  fbBandPpm : Nat
  /-- `FB_GLITCH_PPM`, the change of the tick count that is a glitch. -/
  fbGlitchPpm : Nat
  /-- `vol` as a table: the samples that the volume stage does not pass unchanged, each with its image.
  Every function from the 24-bit range into itself is such a table. -/
  vol : List (BitVec 24 × BitVec 24)
deriving DecidableEq, Repr, Inhabited

/-- The parameters hardwired in the device. OPAQUE: R7 says that no value of an open parameter may be assumed, and R6
leaves those of its parameters open to which it gives a range. -/
opaque Config.hardwired : Config

/-- A configuration with the literals of the source in the parameters that have one (R6, 93_implementation_defined.md
section 2): `BACKPRESSURE_LEVEL` is `N_SLOTS - 1`, one pair is lost there, `CLAMP` is 1.5 × 2^23. -/
def Config.withSourceValues (c : Config) : Config :=
  { c with
    backpressureLevel := c.nSlots - 1, backpressurePairs := 1
    fvTolPpm := 250, clampBound := 12582912, fbErrLimit := 5, fbBandPpm := 125, fbGlitchPpm := 1000 }

/-- The configuration of the device: "a proof about the device may rely only on the literal values"
(93_implementation_defined.md section 2). -/
def Config.device : Config := Config.hardwired.withSourceValues

/-- `L[s] = 2 * H[s]`, the length of the delay line of a stage (R31). -/
def Config.lineLength (c : Config) (s : Stage) : Nat := 2 * (c.stage.get s).taps

/-- FREE VALUE (R187, R260): what integrator `i` of channel `c` (0 left, 1 right) holds at draw `k` while the encoder
state is unspecified; it is narrowed to the register's `INT_BITS` bits where it is read. -/
opaque Config.freeIntegrator (k c i : Nat) : Int

/-- FREE VALUE (R187, R260): what `ds.prev[c]` holds at draw `k` while the encoder state is unspecified. -/
opaque Config.freePrev (k c : Nat) : Word

/-- FREE VALUE (R187, R260): the output word of channel `c` of a `DSE` that ends with `DS_OVERFLOW`, and of every one
after it until the next `DSZ`, at draw `k`. -/
opaque Config.freeOutput (k c : Nat) : Word

/-- FREE VALUE (R228): the output word pairs that the physical output stage sees of a `CCY` that ends with
`DS_OVERFLOW`, at draw `k`; how many there are is free too. -/
opaque Config.freeEmission (k : Nat) : List (Word × Word)

/-- FREE VALUE (R35, R290): what cell `a` of space `SLOT` holds before anything has written it. -/
opaque Config.freeSlot (a : Nat) : Pair

/-- FREE VALUE (log 11): what field `k` of the status registers `CFG0` and `CFG1`, numbered in the order of R46, shows
of a parameter `n` that does not fit it. -/
opaque Config.freeField (k n : Nat) : Nat

end Sys2Proof
end

