-- ==== Sys2Proof/Machine/State.lean ====
section
/-! DEFINITION. Everything the spec gives the machine, as plain data (spec/10_state.md), the model's own inputs and outputs beside it, the reasons a step can stop, and the state after reset (R290). -/

namespace Sys2Proof.Machine

/-- The two command ports and the read port (R90). -/
inductive Port
  | p | c | t
deriving DecidableEq, Repr, Inhabited

/-- `sys.life` (R23). -/
inductive Life
  | uninit | ready | failed
deriving DecidableEq, Repr, Inhabited

/-- `mute.state` (R40). -/
inductive Mute
  | playing | muted
deriving DecidableEq, Repr, Inhabited

/-- `q.lock` (R38). -/
inductive Lock
  | free | heldByP | heldByC
deriving DecidableEq, Repr, Inhabited

/-- The status codes of R100. -/
inductive Status
  | ok | formatErr | qFull | qEmpty | fbGlitch | configErr | illegal | widthErr | notReady | dsOverflow
deriving DecidableEq, Repr, Inhabited

/-- AudioFormat: `fmt.rate`, `fmt.depth`, `fmt.valid` (R24, R25). -/
structure FormatRegs where
  rate : Option Rate
  depth : Option Depth
  valid : Bool
deriving DecidableEq, Repr, Inhabited

/-- `fv.prev_rate`, `fv.prev_depth` (R26) and `fv.updated` (R27). -/
structure ValidatorRegs where
  prevRate : Option Rate
  prevDepth : Option Depth
  updated : Bool
deriving DecidableEq, Repr, Inhabited

/-- One stage's FilterState: the delay line and its cursor (R30, R31). -/
structure FilterState where
  dl : List Pair
  cur : Nat
deriving DecidableEq, Repr, Inhabited

/-- One channel's ModulatorState: integrators 1 to `DS_M`, lowest order first, and the previous sample (R33). -/
structure Channel where
  integ : List Int
  prev : Word
deriving DecidableEq, Repr, Inhabited

/-- ModulatorState of both channels (R33). `lost` is the model's own: it is set from a `DS_OVERFLOW` to the next
`DSZ`, and while it is set what `integ` and `prev` hold is unspecified: free values (R187, R260). -/
structure Modulator where
  left : Channel
  right : Channel
  lost : Bool
deriving DecidableEq, Repr, Inhabited

/-- The two header fields of a queue slot (R35). -/
structure SlotHeader where
  len : Nat
  group : Family
deriving DecidableEq, Repr, Inhabited

/-- The data cells of space `SLOT` (R60): cell number and pair, cell numbers strictly rising, and every
cell that has been written listed; the others hold their free value (R35). -/
abbrev Memory := List (Nat × Pair)

/-- QueueSlot ring: slot headers, slot data, cursors, counters, lock (R35 to R38). -/
structure Queue where
  hdr : List SlotHeader
  data : Memory
  wc : Nat
  rc : Nat
  occ : Nat
  total : Nat
  lock : Lock
deriving DecidableEq, Repr, Inhabited

/-- FeedbackState (R44). -/
structure Feedback where
  value : Nat
  nominal : Nat
  min : Nat
  max : Nat
  target : Nat
  lastTicks : Word
  haveLast : Bool
  configured : Bool
deriving DecidableEq, Repr, Inhabited

/-- For whom a block is being enqueued: a `QEN` command, or line 8 of a `PCY` whose feedback update ended with the
given status (R224). -/
inductive EnqueueFor
  | command
  | cycle (feedback : Status)
deriving DecidableEq, Repr

/-- For whom a block is being dequeued: a `QDE` command, or line 4 of a `CCY` (R228). -/
inductive DequeueFor
  | command
  | cycle
deriving DecidableEq, Repr

/-- An operation in flight between two of its steps (R78): what it does in its next step, with the working values it
carries. Operations that are one step are never in flight. -/
inductive Flight
  /-- `QEN` step 2: pair `j` of the block goes into the slot next; after the last pair, the header. -/
  | enqWrite (caller : EnqueueFor) (group : Family) (block : Block) (j : Nat)
  /-- `QEN` step 3: the commit. -/
  | enqCommit (caller : EnqueueFor) (group : Family) (block : Block)
  /-- `QDE` step 2: the header is read next. -/
  | deqHeader (caller : DequeueFor)
  /-- `QDE` step 2: `got` of the slot's `n` pairs are copied out; after the last one, step 3, the commit. -/
  | deqRead (caller : DequeueFor) (group : Family) (n : Nat) (got : Block)
  /-- `QDE` after its commit: `out.family` is written next. -/
  | deqFamily (caller : DequeueFor) (group : Family) (block : Block)
  /-- `FBU` step 2, with the total read in step 1. -/
  | fbuRest (tick : Word) (total : Nat)
  /-- `PCY` line 1: the body of `OSZ`. -/
  | pcyZero (tick : Word) (raw : Block)
  /-- `PCY` line 1: the set of `x.ds_reset_req`. -/
  | pcyAsk (tick : Word) (raw : Block)
  /-- `PCY` line 1: the body of `FBC`. -/
  | pcyFeedback (tick : Word) (raw : Block)
  /-- `PCY` lines 2 to 4: the two checks and the occupancy snapshot. -/
  | pcyOccupancy (tick : Word) (raw : Block)
  /-- `PCY` lines 5 and 6. -/
  | pcyOversample (tick : Word) (rate : Rate) (x : Block) (occ0 : Nat)
  /-- `PCY` line 7, step 1 of the body of `FBU`. -/
  | pcyTotal (tick : Word) (rate : Rate) (y : Block)
  /-- `PCY` line 7, step 2 of the body of `FBU`. -/
  | pcyUpdate (tick : Word) (rate : Rate) (y : Block) (total : Nat)
  /-- `PCY` line 8, step 1 of the body of `QEN`. -/
  | pcyEnqueue (rate : Rate) (y : Block) (feedback : Status)
  /-- `CCY` line 1: the body of `DSZ` that a taken request asks for. -/
  | ccyZero
  /-- `CCY` lines 2 and 3: occupancy read, mute transition, mute-entry queue reset. -/
  | ccyMute
  /-- `CCY` line 2: the body of `DSZ` at mute entry. -/
  | ccyEntryZero
  /-- `CCY` line 4, step 1 of the body of `QDE`. -/
  | ccyDequeue
  /-- `CCY` line 5, or the silence of line 3: pairs still to encode, output words so far, the status at the end. -/
  | ccyEncode (todo : Block) (words : List (Word × Word)) (status : Status)
deriving DecidableEq, Repr

/-- One port: the words delivered and not yet consumed, the words of the responses returned, oldest first, and the
operation in flight (R70, R90, R91). -/
structure PortState where
  input : List Word
  output : List Word
  flight : Option Flight
deriving DecidableEq, Repr

/-- How much of an operation a turn executes: all of its steps with no step of another agent between them, or one step
of R78. -/
inductive Grain
  | whole | single
deriving DecidableEq, Repr

/-- One entry of the schedule: which agent's turn it is, and how much it executes. -/
structure Turn where
  port : Port
  grain : Grain
deriving DecidableEq, Repr

/-- An output word pair as the physical output stage receives it, with the level of the family line (R230). -/
structure Emission where
  left : Word
  right : Word
  family : Family
deriving DecidableEq, Repr

/-- The machine. The fields from `life` to `fb` are the spec's (10_state.md); the others are the model's own: the
hardwired configuration, the ports, the schedule, the emitted stream and the count of free values drawn. -/
structure State where
  /-- The configuration record (R6, R7); hardwired, no step writes it (R82). -/
  cfg : Config
  /-- `sys.life` (R23). -/
  life : Life
  /-- `fmt.*` (R25). -/
  fmt : FormatRegs
  /-- `fv.*` (R26, R27). -/
  fv : ValidatorRegs
  /-- `os.dl[s]`, `os.cur[s]` (R31). -/
  os : PerStage FilterState
  /-- `ds.integ`, `ds.prev` (R33). -/
  ds : Modulator
  /-- `q.*` (R35 to R38). -/
  q : Queue
  /-- `mute.state` (R40). -/
  mute : Mute
  /-- `out.family` (R41). -/
  family : Family
  /-- `x.ds_reset_req` (R42). -/
  dsResetReq : Bool
  /-- `fb.*` (R44). -/
  fb : Feedback
  /-- The `P` port (R90). -/
  portP : PortState
  /-- The `C` port (R90). -/
  portC : PortState
  /-- The `T` port (R90). -/
  portT : PortState
  /-- The port whose step is being taken. -/
  issuer : Port
  /-- Whose steps come next (R71); nothing constrains it. -/
  sched : List Turn
  /-- The stream to the physical output stage, oldest first (R230). -/
  emitted : List Emission
  /-- How many free values have been drawn. -/
  freeCount : Nat
deriving DecidableEq, Repr

/-- Why the machine stops with nothing claimed afterwards. All are safe: the model stops where the spec gives no
effect. -/
inductive Fault
  /-- Raised by `QRS` issued while the consumer is between the first and the last step of an operation: "a model need
  not define that behaviour and may treat it as a precondition violation" (R305, U12). Safe. -/
  | qrsRace
  /-- Raised by a slot access whose cell lies outside the `N_SLOTS * FRAME_MAX` cells of space `SLOT` (R60, R61). Safe. -/
  | slotAddress
deriving DecidableEq, Repr

/-- Why an instruction has no meaning. -/
inductive Refusal
  /-- Raised by the dispatch arm of an instruction that has no meaning yet. Safe. -/
  | notModelled (mnemonic : String)
deriving DecidableEq, Repr

/-- What a step answers. -/
abbrev Result := Host.Outcome State Fault Refusal

/-- A stage in its reset state: every cell (0, 0), cursor 0 (R31). -/
def FilterState.zero (length : Nat) : FilterState := { dl := List.replicate length Pair.zero, cur := 0 }

/-- All three stages in their reset state. -/
def cascadeZero (cfg : Config) : PerStage FilterState :=
  { s0 := FilterState.zero (cfg.lineLength .s0)
    s1 := FilterState.zero (cfg.lineLength .s1)
    s2 := FilterState.zero (cfg.lineLength .s2) }

/-- A channel in its reset state (R33). -/
def Channel.zero (order : Nat) : Channel := { integ := List.replicate order 0, prev := 0 }

/-- The modulator in its reset state (R33). -/
def Modulator.zero (cfg : Config) : Modulator :=
  { left := Channel.zero cfg.dsM, right := Channel.zero cfg.dsM, lost := false }

/-- The queue after reset; no slot cell has been written, each holds its free value (R35 to R38, R290). -/
def Queue.atReset (cfg : Config) : Queue :=
  { hdr := List.replicate cfg.nSlots ⟨0, .f441⟩, data := [], wc := 0, rc := 0, occ := 0, total := 0, lock := .free }

/-- The feedback registers after reset (R44). -/
def Feedback.atReset : Feedback :=
  { value := 0, nominal := 0, min := 0, max := 0, target := 0, lastTicks := 0, haveLast := false, configured := false }

/-- A port on which nothing has arrived. -/
def PortState.idle : PortState := { input := [], output := [], flight := none }

/-- The state right after hardware reset of a device with configuration `cfg` (R290). -/
def State.resetWith (cfg : Config) : State :=
  { cfg := cfg
    life := .uninit
    fmt := { rate := none, depth := none, valid := false }
    fv := { prevRate := none, prevDepth := none, updated := false }
    os := cascadeZero cfg
    ds := Modulator.zero cfg
    q := Queue.atReset cfg
    mute := .muted
    family := .f441
    dsResetReq := false
    fb := Feedback.atReset
    portP := PortState.idle
    portC := PortState.idle
    portT := PortState.idle
    issuer := .p
    sched := []
    emitted := []
    freeCount := 0 }

/-- The machine right after reset (R290), with the device's own configuration. -/
def State.reset : State := State.resetWith Config.device

end Sys2Proof.Machine
end

