-- ==== Sys2Proof/Machine/Operands.lean ====
section
/-! DEFINITION. The numeric functions the rules are written with: shifts, clamps, rate and depth codes, sample normalisation, the volume stage, the candidate functions, the encoder's quantizer (R8 to R12, R96 to R99, R121, R122, R181 to R185, R222, R223). -/

namespace Sys2Proof

/-- The rates in ascending order, which is the order of their codes (R96). -/
def Rate.all : List Rate := [.r44100, .r48000, .r88200, .r96000, .r176400, .r192000, .r352800, .r384000]

/-- The rate in Hz (R6). -/
def Rate.hz : Rate → Nat
  | .r44100 => 44100
  | .r48000 => 48000
  | .r88200 => 88200
  | .r96000 => 96000
  | .r176400 => 176400
  | .r192000 => 192000
  | .r352800 => 352800
  | .r384000 => 384000

/-- The rate code (R8, R96). -/
def Rate.code : Rate → BitVec 4
  | .r44100 => 1
  | .r48000 => 2
  | .r88200 => 3
  | .r96000 => 4
  | .r176400 => 5
  | .r192000 => 6
  | .r352800 => 7
  | .r384000 => 8

/-- The rate with a code; none for 0 and the reserved codes 9 to 15 (R96). -/
def Rate.ofCode (code : BitVec 4) : Option Rate := Rate.all.find? (fun r => r.code == code)

/-- The family of a rate (R8). -/
def Rate.family : Rate → Family
  | .r44100 | .r88200 | .r176400 | .r352800 => .f441
  | .r48000 | .r96000 | .r192000 | .r384000 => .f48

/-- The number of active cascade stages (R8). -/
def Rate.stages : Rate → Nat
  | .r44100 | .r48000 => 3
  | .r88200 | .r96000 => 2
  | .r176400 | .r192000 => 1
  | .r352800 | .r384000 => 0

/-- The internal processing rate of a family (R8). -/
def Family.internalHz : Family → Nat
  | .f441 => 352800
  | .f48 => 384000

/-- The depths in ascending order (R97). -/
def Depth.all : List Depth := [.d16, .d24, .d32]

/-- The depth in bits (R6). -/
def Depth.bits : Depth → Nat
  | .d16 => 16
  | .d24 => 24
  | .d32 => 32

/-- The depth code (R97). -/
def Depth.code : Depth → BitVec 2
  | .d16 => 1
  | .d24 => 2
  | .d32 => 3

/-- The rate group as a bit: 0 is `F441`, 1 is `F48` (R35, R93). -/
def Family.bit : Family → Bool
  | .f441 => false
  | .f48 => true

/-- The stage with an index; none for 3 to 15 (R93). -/
def Stage.ofIndex (a : BitVec 4) : Option Stage :=
  if a = 0 then some .s0 else if a = 1 then some .s1 else if a = 2 then some .s2 else none

/-- The stages that `k` active stages use, stage 0 first (R144). -/
def Stage.firstStages (k : Nat) : List Stage := [Stage.s0, .s1, .s2].take k

namespace Machine

/-- The code of a stored rate; 0 where there is none (R96). -/
def rateCode (r : Option Rate) : BitVec 4 :=
  match r with
  | some r => r.code
  | none => 0

/-- The code of a stored depth; 0 where there is none (R97). -/
def depthCode (d : Option Depth) : BitVec 2 :=
  match d with
  | some d => d.code
  | none => 0

/-- `asr(v, k)`, the floor of v / 2^k (R12). -/
def asr (v : Int) (k : Nat) : Int := v / ((2 ^ k : Nat) : Int)

/-- `clamp(v, lo, hi)` (R11). -/
def clamp (v lo hi : Int) : Int := if v < lo then lo else if hi < v then hi else v

/-- `sext_N(v)` (R10). -/
def sext (n : Nat) (v : Int) : Int :=
  let u := v % ((2 ^ n : Nat) : Int)
  if u < ((2 ^ (n - 1) : Nat) : Int) then u else u - ((2 ^ n : Nat) : Int)

/-- `u32(v)` as the word that holds it (R10). -/
def word (v : Int) : Word := BitVec.ofInt 32 v

/-- `norm(d, w)`: a raw sample word at depth `d` as a number of the 24-bit range (R99, R222). -/
def norm (d : Depth) (w : Word) : Int :=
  match d with
  | .d16 => (w.extractLsb' 0 16).toInt * 256
  | .d24 => (w.extractLsb' 0 24).toInt
  | .d32 => asr w.toInt 8

/-- `vol`, the external volume stage on one 24-bit-range sample (R7, R223). -/
def vol (cfg : Config) (x : BitVec 24) : BitVec 24 :=
  match cfg.vol.find? (fun e => e.1 == x) with
  | some e => e.2
  | none => x

/-- One raw sample word on its way into the cascade: normalised, then through the volume stage, as a sample word
(R222, R223, R224 line 3). -/
def rawSample (cfg : Config) (d : Depth) (w : Word) : Word :=
  (vol cfg (BitVec.ofInt 24 (norm d w))).signExtend 32

/-- The raw block as the cascade receives it (R224 line 3). -/
def rawBlock (cfg : Config) (d : Depth) (raw : Block) : Block :=
  raw.map (fun p => ⟨rawSample cfg d p.l, rawSample cfg d p.r⟩)

/-- Whether the measured word clock is within `FV_TOL_PPM` of rate `r`, bound inclusive (R121). -/
def rateMatches (cfg : Config) (ww : Nat) (r : Rate) : Bool :=
  decide (((cfg.fRef * cfg.fvWordPeriods : Nat) - (r.hz * ww : Nat) : Int).natAbs * 1000000
    ≤ cfg.fvTolPpm * r.hz * ww)

/-- `cand_rate(ww)` (R121). -/
def candRate (cfg : Config) (ww : Word) : Option Rate :=
  if ww = 0 then none else Rate.all.find? (rateMatches cfg ww.toNat)

/-- The number of bit-clock periods in one word-clock period, rounded to nearest, halves upward (R122). -/
def clockRatio (cfg : Config) (ww bw : Nat) : Nat :=
  (2 * (ww * cfg.fvBitPeriods) + bw * cfg.fvWordPeriods) / (2 * (bw * cfg.fvWordPeriods))

/-- `cand_depth(ww, bw)` (R122). -/
def candDepth (cfg : Config) (ww bw : Word) : Option Depth :=
  if ww = 0 ∨ bw = 0 then none
  else Depth.all.find? (fun d => clockRatio cfg ww.toNat bw.toNat == cfg.ratio.get d)

/-- The whitelisted rate with this number of Hz (R124). -/
def declaredRate (hz : Word) : Option Rate := Rate.all.find? (fun r => r.hz == hz.toNat)

/-- The whitelisted depth with this number of bits (R124). -/
def declaredDepth (bits : Word) : Option Depth := Depth.all.find? (fun d => d.bits == bits.toNat)

/-- `LG` (R181). -/
def lerpShift (cfg : Config) : Nat := Nat.log2 cfg.dsN

/-- `QSHIFT` (R181). -/
def qShift (cfg : Config) : Nat := cfg.dsInBits - cfg.dsW

/-- `BIAS` (R181). -/
def bias (cfg : Config) : Int := ((2 ^ (cfg.dsInBits - 1) : Nat) : Int)

/-- `QMAX` (R181). -/
def qMax (cfg : Config) : Int := ((2 ^ cfg.dsW : Nat) : Int) - 1

/-- Sub-sample `j` of input `x` after previous input `p` (R182). -/
def subSample (cfg : Config) (p x : Int) (j : Nat) : Int :=
  if cfg.dsLerp = 1 then p + asr ((x - p) * ((j : Int) + 1)) (lerpShift cfg) else x

/-- The code of a quantizer input: bias added, top `DS_W` bits, saturated (R183). -/
def quantize (cfg : Config) (v : Int) : Int := clamp (asr (v + bias cfg) (qShift cfg)) 0 (qMax cfg)

/-- The quantized output in input units, bias removed again (R183). -/
def dequantize (cfg : Config) (code : Int) : Int := code * ((2 ^ qShift cfg : Nat) : Int) - bias cfg

/-- Whether a value fits a signed `INT_BITS`-bit integrator register (R183, R187). -/
def fitsIntegrator (cfg : Config) (v : Int) : Bool :=
  decide (-((2 ^ (cfg.intBits - 1) : Nat) : Int) ≤ v ∧ v ≤ ((2 ^ (cfg.intBits - 1) : Nat) : Int) - 1)

/-- The integrators after one sub-step with quantized output `y`, from lowest to highest order: `lower` is what the
next one adds, the sub-sample first and then each value just updated (R183); `none` when one does not fit its
register. -/
def integrate (cfg : Config) (y : Int) : Int → List Int → Option (List Int)
  | _, [] => some []
  | lower, i :: is =>
    if fitsIntegrator cfg (i + lower - y) then
      match integrate cfg y (i + lower - y) is with
      | some is' => some ((i + lower - y) :: is')
      | none => none
    else none

/-- What a sub-step quantizes: the highest-order integrator as it stands before it, or the sub-sample itself where
there is none (R183). -/
def quantizerInput (integ : List Int) (u : Int) : Int := integ.getLast?.getD u

/-- One sub-step with input `u`: the integrators after it and its code; `none` on an overflow (R183). -/
def subStep (cfg : Config) (integ : List Int) (u : Int) : Option (List Int × Int) :=
  let code := quantize cfg (quantizerInput integ u)
  match integrate cfg (dequantize cfg code) u integ with
  | some integ' => some (integ', code)
  | none => none

/-- The sub-steps with the given inputs, in order: the integrators after them and the codes; `none` on an overflow. -/
def subSteps (cfg : Config) (integ : List Int) : List Int → Option (List Int × List Int)
  | [] => some (integ, [])
  | u :: us =>
    match subStep cfg integ u with
    | none => none
    | some (integ', code) =>
      match subSteps cfg integ' us with
      | none => none
      | some (integ'', codes) => some (integ'', code :: codes)

/-- Codes packed into an output word, sub-step 0 lowest (R102, R185). -/
def packCodes (width : Nat) : List Int → Nat
  | [] => 0
  | code :: codes => code.toNat + 2 ^ width * packCodes width codes

/-- The `DS_N` sub-samples of an input (R182). -/
def subSamples (cfg : Config) (p x : Int) : List Int := (List.range cfg.dsN).map (subSample cfg p x)

/-- One channel of `DSE` on sample word `x`: the channel after it and its output word; `none` on an overflow
(R184). -/
def encodeChannel (cfg : Config) (ch : Channel) (x : Word) : Option (Channel × Word) :=
  match subSteps cfg ch.integ (subSamples cfg ch.prev.toInt x.toInt) with
  | some (integ', codes) => some ({ integ := integ', prev := x }, BitVec.ofNat 32 (packCodes cfg.dsW codes))
  | none => none

/-- `d(j)`: the pair received `j` inputs ago, with the cursor still at the newest (R61, R141). -/
def tap (length : Nat) (f : FilterState) (j : Nat) : Pair :=
  f.dl.getD ((f.cur + length - j) % length) Pair.zero

/-- The accumulator of one channel: coefficient `k` times the sum of the two taps at distance `k` from the centre,
summed over the coefficients from `k` on (R143). -/
def accumulate (member : Pair → Word) (length taps : Nat) (f : FilterState) : Nat → List Int → Int
  | _, [] => 0
  | k, c :: cs =>
    c * ((member (tap length f (taps - 1 - k))).toInt + (member (tap length f (taps + k))).toInt)
      + accumulate member length taps f (k + 1) cs

/-- The interpolated sample of one channel: accumulator, shift, clamp to ±`bound` (R143). -/
def interpolate (bound : Nat) (sc : StageConfig) (member : Pair → Word) (f : FilterState) : Word :=
  word (clamp (asr (accumulate member (2 * sc.taps) sc.taps f 0 (sc.coef.take sc.taps)) sc.shift)
    (-bound) bound)

/-- One input pair through a stage: the stage after it, the real pair, the interpolated pair (R143). -/
def stagePair (bound : Nat) (sc : StageConfig) (f : FilterState) (x : Pair) : FilterState × Pair × Pair :=
  let f' : FilterState := { f with dl := f.dl.set f.cur x }
  ({ f' with cur := (f.cur + 1) % (2 * sc.taps) },
   tap (2 * sc.taps) f' sc.taps,
   ⟨interpolate bound sc Pair.l f', interpolate bound sc Pair.r f'⟩)

/-- The step loop of `OSS` over a block: the stage after it and the output block, real pair before interpolated pair
(R143). -/
def stageBlock (bound : Nat) (sc : StageConfig) (f : FilterState) : Block → FilterState × Block
  | [] => (f, [])
  | x :: xs =>
    let r := stagePair bound sc f x
    let rest := stageBlock bound sc r.1 xs
    (rest.1, r.2.1 :: r.2.2 :: rest.2)

/-- A block through the given stages in order, with the configuration's `CLAMP` (R144). -/
def cascadeBlock (cfg : Config) (os : PerStage FilterState) : List Stage → Block → PerStage FilterState × Block
  | [], x => (os, x)
  | s :: ss, x =>
    let r := stageBlock cfg.clampBound (cfg.stage.get s) (os.get s) x
    cascadeBlock cfg (os.set s r.1) ss r.2

/-- What integrators of a channel hold at draw `k` while the encoder state is unspecified: free values of the
registers' width (R187, R260). -/
def freeChannel (cfg : Config) (k c : Nat) : Channel :=
  { integ := (List.range cfg.dsM).map (fun i => sext cfg.intBits (Config.freeIntegrator k c i))
    prev := Config.freePrev k c }

/-- The unspecified encoder state at draw `k`. -/
def freeModulator (cfg : Config) (k : Nat) : Modulator :=
  { left := freeChannel cfg k 0, right := freeChannel cfg k 1, lost := true }

end Machine

end Sys2Proof
end

