-- ==== Sys2Proof/Machine/Flags.lean ====
section
/-! DEFINITION. The numbered read view: the one-bit flags and registers as the status words that `RDS` and the format validator return (R46, R52, R103). -/

namespace Sys2Proof.Machine

/-- `sys.life` as its two bits (R23). -/
def Life.code : Life → BitVec 2
  | .uninit => 0
  | .ready => 1
  | .failed => 2

/-- `mute.state` as its bit (R40). -/
def Mute.bit : Mute → Bool
  | .playing => false
  | .muted => true

/-- A flag as a result word: bit 0, other bits 0 (R103). -/
def flagWord (b : Bool) : Word := if b then 1 else 0

/-- A count or value as a result word: the unsigned number in bits [31:0] (R103). -/
def natWord (n : Nat) : Word := BitVec.ofNat 32 n

/-- Status register 0, `FMT` (R46). -/
def fmtWord (s : State) : Word :=
  0#24 ++ BitVec.ofBool s.fv.updated ++ BitVec.ofBool s.fmt.valid ++ depthCode s.fmt.depth ++ rateCode s.fmt.rate

/-- Status register 1, `QOCC` (R46). -/
def qoccWord (s : State) : Word := 0#24 ++ BitVec.ofNat 8 s.q.occ

/-- Status register 2, `QTOT` (R46). -/
def qtotWord (s : State) : Word := natWord s.q.total

/-- Status register 3, `QCUR` (R46). -/
def qcurWord (s : State) : Word := 0#16 ++ BitVec.ofNat 8 s.q.rc ++ BitVec.ofNat 8 s.q.wc

/-- Status register 4, `CTL` (R46). -/
def ctlWord (s : State) : Word :=
  0#25 ++ BitVec.ofBool s.fb.configured ++ BitVec.ofBool s.fb.haveLast ++ s.life.code
    ++ BitVec.ofBool s.family.bit ++ BitVec.ofBool s.dsResetReq ++ BitVec.ofBool s.mute.bit

/-- Status register 11, `FVPREV` (R46). -/
def fvprevWord (s : State) : Word := 0#26 ++ depthCode s.fv.prevDepth ++ rateCode s.fv.prevRate

/-- Field `k` of `CFG0` and `CFG1`, `w` bits wide, of a parameter `n`. DESIGN CHOICE (log 11): R46 does not say what a
field shows of a parameter that does not fit it, which is one of a configuration that `INIT` rejects; a free value. -/
def configField (w k n : Nat) : BitVec w := BitVec.ofNat w (if n < 2 ^ w then n else Config.freeField k n)

/-- Status register 12, `CFG0` (R46). -/
def cfg0Word (c : Config) : Word :=
  0#5 ++ configField 1 5 c.dsLerp ++ configField 4 4 c.dsN ++ configField 3 3 c.dsW ++ configField 3 2 c.dsM
    ++ configField 8 1 c.playThreshold ++ configField 8 0 c.nSlots

/-- Status register 13, `CFG1` (R46). -/
def cfg1Word (c : Config) : Word := configField 16 7 c.silenceLen ++ configField 16 6 c.frameMax

/-- The content of status register `n`; none for the reserved numbers 14 to 65535 (R46). -/
def statusRegister (s : State) (n : Nat) : Option Word :=
  match n with
  | 0 => some (fmtWord s)
  | 1 => some (qoccWord s)
  | 2 => some (qtotWord s)
  | 3 => some (qcurWord s)
  | 4 => some (ctlWord s)
  | 5 => some (natWord s.fb.value)
  | 6 => some (natWord s.fb.nominal)
  | 7 => some (natWord s.fb.min)
  | 8 => some (natWord s.fb.max)
  | 9 => some (natWord s.fb.target)
  | 10 => some s.fb.lastTicks
  | 11 => some (fvprevWord s)
  | 12 => some (cfg0Word s.cfg)
  | 13 => some (cfg1Word s.cfg)
  | _ => none

end Sys2Proof.Machine
end

