-- ==== Sys2Proof/Machine/Ops.lean ====
section
/-! DEFINITION. The named operations over the machine: slot memory, ports and responses, the checks before an operation, raising a status, and the bodies that the single operations and the two cycles share (R13, R15, R60 to R81, R91, R101, R262, R270 and the body of each operation). -/

namespace Sys2Proof.Machine

/-! Slot memory (R60, R61). -/

/-- The canonical form: cell numbers strictly rising. -/
abbrev Memory.wf (m : Memory) : Prop := m.Pairwise (fun x y => x.1 < y.1)

/-- The pair last written to a cell; `none` where nothing has written it. -/
def Memory.read : Memory → Nat → Option Pair
  | [], _ => none
  | (b, v) :: m, a => if a = b then some v else Memory.read m a

/-- What a cell holds: the pair last written, and before that its free value (R35, U2). -/
def Memory.value (m : Memory) (a : Nat) : Pair := (m.read a).getD (Config.freeSlot a)

/-- Write one cell. -/
def Memory.write : Memory → Nat → Pair → Memory
  | [], a, p => [(a, p)]
  | (b, v) :: m, a, p =>
    if a < b then (a, p) :: (b, v) :: m
    else if a = b then (a, p) :: m
    else (b, v) :: Memory.write m a p

/-- Cell `j` of slot `i` (R60, R67). -/
def slotCell (cfg : Config) (i j : Nat) : Nat := i * cfg.frameMax + j

/-- Whether a cell number lies in space `SLOT` (R60). -/
abbrev inSlotSpace (cfg : Config) (a : Nat) : Prop := a < cfg.nSlots * cfg.frameMax

/-- Read pair `j` of slot `i`: a cell outside the space is a fault. -/
def slotRead (cfg : Config) (m : Memory) (i j : Nat) : Except Fault Pair :=
  if inSlotSpace cfg (slotCell cfg i j) then .ok (m.value (slotCell cfg i j)) else .error .slotAddress

/-- Write pair `j` of slot `i`: a cell outside the space is a fault. -/
def slotWrite (cfg : Config) (m : Memory) (i j : Nat) (p : Pair) : Except Fault Memory :=
  if inSlotSpace cfg (slotCell cfg i j) then .ok (m.write (slotCell cfg i j) p) else .error .slotAddress

/-- `MemRead(SLOT, i, j, n)` (R61). -/
def slotReadBlock (cfg : Config) (m : Memory) (i j : Nat) : Nat → Except Fault Block
  | 0 => .ok []
  | n + 1 =>
    match slotRead cfg m i j with
    | .error e => .error e
    | .ok p =>
      match slotReadBlock cfg m i (j + 1) n with
      | .error e => .error e
      | .ok b => .ok (p :: b)

/-- `MemWrite(SLOT, i, j, n, B)` (R61). -/
def slotWriteBlock (cfg : Config) (m : Memory) (i j : Nat) : Block → Except Fault Memory
  | [] => .ok m
  | p :: b =>
    match slotWrite cfg m i j p with
    | .error e => .error e
    | .ok m' => slotWriteBlock cfg m' i (j + 1) b

/-- The header of slot `i`. -/
def Queue.header (q : Queue) (i : Nat) : SlotHeader := q.hdr.getD i ⟨0, .f441⟩

/-! Ports and responses (R91, R101, R103). -/

/-- A port's words and operation in flight. -/
def State.port (s : State) : Port → PortState
  | .p => s.portP
  | .c => s.portC
  | .t => s.portT

/-- Replace a port's words and operation in flight. -/
def State.setPort (s : State) (p : Port) (v : PortState) : State :=
  match p with
  | .p => { s with portP := v }
  | .c => { s with portC := v }
  | .t => { s with portT := v }

/-- The status code (R100). -/
def Status.code : Status → BitVec 4
  | .ok => 0
  | .formatErr => 1
  | .qFull => 2
  | .qEmpty => 3
  | .fbGlitch => 4
  | .configErr => 5
  | .illegal => 6
  | .widthErr => 7
  | .notReady => 8
  | .dsOverflow => 9

/-- The status word: code in [3:0], zeros in [15:4], `out_len` in [31:16] (R101). -/
def statusWord (st : Status) (outLen : Nat) : Word := BitVec.ofNat 16 outLen ++ 0#12 ++ st.code

/-- A response: status, `out_len`, result words, output words (R91). -/
structure Reply where
  status : Status
  outLen : Nat
  results : List Word
  block : List Word
deriving DecidableEq, Repr

/-- The words of a response, in order (R91). -/
def Reply.words (r : Reply) : List Word := statusWord r.status r.outLen :: (r.results ++ r.block)

/-- A response with result words and no output block. -/
def Reply.plain (st : Status) (results : List Word) : Reply := { status := st, outLen := 0, results := results, block := [] }

/-- A response that is `OK` with an output block of pairs (R98). -/
def Reply.withBlock (results : List Word) (b : Block) : Reply :=
  { status := .ok, outLen := b.length, results := results, block := b.words }

/-- The words of output word pairs, left word first (R228). -/
def pairWords : List (Word × Word) → List Word
  | [] => []
  | (l, r) :: ws => l :: r :: pairWords ws

/-- A response of `CCY` with output words (R101, R228). -/
def Reply.withWords (st : Status) (ws : List (Word × Word)) : Reply :=
  { status := st, outLen := ws.length, results := [], block := pairWords ws }

/-- The issuing port with a response's words added to its output stream. -/
def PortState.respond (v : PortState) (r : Reply) : PortState := { v with output := v.output ++ r.words }

/-- Return a response on the issuing port (R91). -/
def State.respond (s : State) (r : Reply) : State := s.setPort s.issuer ((s.port s.issuer).respond r)

/-- `raise E(info)`: the operation ends with a status and result words; the state changes its rule lists are already
made, and no others are (R13, R15, R250). The one operation that stands in place of taking an exception. -/
def State.raise (s : State) (st : Status) (results : List Word) : Result := .next (s.respond (Reply.plain st results))

/-- The operation ends with status `OK` and result words. -/
def State.done (s : State) (results : List Word) : Result := s.raise .ok results

/-! The checks before an operation (R262, R270). -/

/-- The ports that accept an operation (R270); `SYS` is the `P` port. -/
def ports : Row → List Port
  | .fvo | .fvd | .fvt | .osr | .oss | .osa | .osz | .qen | .qrs | .fbc | .fbu | .pcy | .init => [.p]
  | .qde | .dse | .dsz | .ccy => [.c]
  | .qoc | .qts => [.p, .c]
  | .fbr => [.p, .t]
  | .rds => [.p, .c, .t]

/-- Whether an operation executes in every value of `sys.life` (R23, R236). -/
def runsUnready : Row → Bool
  | .init | .rds => true
  | .fvo | .fvd | .fvt | .osr | .oss | .osa | .osz | .qen | .qde | .qoc | .qts | .qrs | .dse | .dsz | .fbc | .fbu
  | .fbr | .pcy | .ccy => false

/-- How many result words an operation returns besides its output block (R94). -/
def resultWords : Row → Nat
  | .fvo | .fvd | .fvt | .qde | .qoc | .qts | .fbu | .fbr | .rds => 1
  | .dse => 2
  | .osr | .oss | .osa | .osz | .qen | .qrs | .dsz | .fbc | .pcy | .ccy | .init => 0

/-- The result words of a refusal with `ILLEGAL`: present and 0 (R104). -/
def illegalResults (row : Row) : List Word := List.replicate (resultWords row) 0

/-- The result words of a refusal with another status: the `FMT` word for `FVO` and `FVD`, the held `fb.value` for
`FBU`, 0 for the others (R103). -/
def refusedResults (row : Row) (s : State) : List Word :=
  match row with
  | .fvo | .fvd => [fmtWord s]
  | .fbu => [natWord s.fb.value]
  | .fvt | .osr | .oss | .osa | .osz | .qen | .qde | .qoc | .qts | .qrs | .dse | .dsz | .fbc | .fbr | .pcy | .ccy
  | .init | .rds => List.replicate (resultWords row) 0

/-- Checks (2) and (3) of R262: the port, then the lifecycle; then the operation's own body. -/
def State.gate (s : State) (row : Row) (body : State → Result) : Result :=
  if s.issuer ∈ ports row then
    if s.life = .ready ∨ runsUnready row = true then body s else s.raise .notReady (refusedResults row s)
  else s.raise .illegal (illegalResults row)

/-! Bodies of the format validator (R123 to R125). -/

/-- The registers after `FVO` with candidates `cr` and `cd` (R123). -/
def observe (cr : Option Rate) (cd : Option Depth) (s : State) : State :=
  let s' : State := { s with fv := { s.fv with prevRate := cr, prevDepth := cd } }
  if cr ≠ none ∧ cd ≠ none ∧ cr = s.fv.prevRate ∧ cd = s.fv.prevDepth then
    if s.fmt.valid then s'
    else { s' with fmt := { rate := cr, depth := cd, valid := true }, fv := { s'.fv with updated := true } }
  else { s' with fmt := { s.fmt with valid := false } }

/-- Whether an observation with candidates `cr` and `cd` validates (R123). -/
def observationOk (cr : Option Rate) (cd : Option Depth) (s : State) : Bool :=
  decide (cr ≠ none ∧ cd ≠ none ∧ cr = s.fv.prevRate ∧ cd = s.fv.prevDepth)

/-- The registers after `FVD` with a whitelisted pair (R124). -/
def declareGood (r : Rate) (d : Depth) (s : State) : State :=
  let changed : Bool := decide (s.fmt.valid = false ∨ s.fmt.rate ≠ some r ∨ s.fmt.depth ≠ some d)
  { s with
    fmt := { rate := some r, depth := some d, valid := true }
    fv := { prevRate := some r, prevDepth := some d, updated := changed || s.fv.updated } }

/-- The registers after `FVD` with a pair outside the whitelist (R124). -/
def declareBad (s : State) : State :=
  { s with
    fmt := { s.fmt with valid := false }
    fv := { s.fv with prevRate := none, prevDepth := none } }

/-- The take of `fv.updated`: its clear (R125). -/
def takeUpdated (s : State) : State := { s with fv := { s.fv with updated := false } }

/-! Bodies of the cascade (R142 to R145). -/

/-- The body of `OSR` on a stage: the whole delay line and the cursor at once (R142). -/
def zeroStage (st : Stage) (s : State) : State :=
  { s with os := s.os.set st (FilterState.zero (s.cfg.lineLength st)) }

/-- The body of `OSZ` (R145). -/
def zeroCascade (s : State) : State := zeroStage .s2 (zeroStage .s1 (zeroStage .s0 s))

/-- The stage loop of `OSS`: the state after it and the output block (R143). -/
def runStage (st : Stage) (b : Block) (s : State) : State × Block :=
  let r := stageBlock s.cfg.clampBound (s.cfg.stage.get st) (s.os.get st) b
  ({ s with os := s.os.set st r.1 }, r.2)

/-- The body of `OSA` at a rate: the state after it and the output block (R144). -/
def runCascade (rate : Rate) (b : Block) (s : State) : State × Block :=
  let r := cascadeBlock s.cfg s.os (Stage.firstStages rate.stages) b
  ({ s with os := r.1 }, r.2)

/-! Bodies of the queue (R161 to R165). -/

/-- Step 1 of `QEN`: whether the queue is full (R161). -/
abbrev queueFull (s : State) : Prop := s.cfg.nSlots ≤ s.q.occ

/-- Step 2 of `QEN`: the header of the slot at the write cursor (R161). -/
def writeHeader (g : Family) (len : Nat) (s : State) : State :=
  { s with q := { s.q with hdr := s.q.hdr.set s.q.wc ⟨len, g⟩ } }

/-- Step 3 of `QEN`: the commit (R161). -/
def commitEnqueue (len : Nat) (s : State) : State :=
  { s with q := { s.q with wc := (s.q.wc + 1) % s.cfg.nSlots, occ := s.q.occ + 1, total := s.q.total + len } }

/-- The body of `QEN` (R161): its status and the state after it. -/
def enqueue (g : Family) (b : Block) (s : State) : Except Fault (Status × State) :=
  if b = [] ∨ s.cfg.frameMax < b.length then .ok (.widthErr, s)
  else if queueFull s then .ok (.qFull, s)
  else
    match slotWriteBlock s.cfg s.q.data s.q.wc 0 b with
    | .error e => .error e
    | .ok m => .ok (.ok, commitEnqueue b.length (writeHeader g b.length { s with q := { s.q with data := m } }))

/-- Step 3 of `QDE`: the commit (R162). -/
def commitDequeue (n : Nat) (s : State) : State :=
  { s with q := { s.q with rc := (s.q.rc + 1) % s.cfg.nSlots, occ := s.q.occ - 1, total := s.q.total - n } }

/-- The last line of `QDE`: the family line takes the frame's group (R41, R162). -/
def setFamily (g : Family) (s : State) : State := { s with family := g }

/-- The body of `QDE` (R162): the frame's group and block, where there is a frame, and the state after it. -/
def dequeue (s : State) : Except Fault (Option (Family × Block) × State) :=
  if s.q.occ = 0 then .ok (none, s)
  else
    match slotReadBlock s.cfg s.q.data s.q.rc 0 (s.q.header s.q.rc).len with
    | .error e => .error e
    | .ok b =>
      .ok (some ((s.q.header s.q.rc).group, b),
        setFamily (s.q.header s.q.rc).group (commitDequeue (s.q.header s.q.rc).len s))

/-- The body of `QRS` (R165): cursors, counters and every slot header; slot data stay. -/
def resetQueue (s : State) : State :=
  { s with
    q := { s.q with wc := 0, rc := 0, occ := 0, total := 0, hdr := s.q.hdr.map (fun _ => ⟨0, .f441⟩) } }

/-! Bodies of the encoder (R184 to R187). -/

/-- The body of `DSZ` (R186). -/
def zeroModulator (s : State) : State := { s with ds := Modulator.zero s.cfg }

/-- The encoder state is unspecified from here to the next `DSZ`: what it holds is drawn anew (R187, R260). -/
def loseModulator (s : State) : State :=
  { s with ds := freeModulator s.cfg s.freeCount, freeCount := s.freeCount + 1 }

/-- The modulator after a pair that both channels encoded, unless it is lost. -/
def storeChannels (left right : Channel) (s : State) : State :=
  { s with ds := { left := left, right := right, lost := s.ds.lost } }

/-- The output words of a `DSE` after an overflow, and of the one that overflows: free values (R187, R260). -/
def freeWords (s : State) : Word × Word := (Config.freeOutput s.freeCount 0, Config.freeOutput s.freeCount 1)

/-- The body of `DSE` on a pair (R184): the two output words, none on an integrator overflow, and the state after it.
Once the modulator is lost a pair that overflows nothing leaves it lost, and its words are free (R187, R260). -/
def encodePair (p : Pair) (s : State) : Option (Word × Word) × State :=
  match encodeChannel s.cfg s.ds.left p.l, encodeChannel s.cfg s.ds.right p.r with
  | some (left, wl), some (right, wr) =>
    if s.ds.lost then (some (freeWords s), loseModulator s) else (some (wl, wr), storeChannels left right s)
  | none, _ => (none, loseModulator s)
  | some _, none => (none, loseModulator s)

/-- Line 5 of `CCY`: encode a block pair by pair; none when one overflows, and then no later pair is encoded (R228). -/
def encodeBlock : Block → State → Option (List (Word × Word)) × State
  | [], s => (some [], s)
  | p :: b, s =>
    match encodePair p s with
    | (none, s') => (none, s')
    | (some w, s') =>
      match encodeBlock b s' with
      | (none, s'') => (none, s'')
      | (some ws, s'') => (some (w :: ws), s'')

/-! Bodies of the feedback controller (R201, R202). -/

/-- The half-width of the feedback band around a nominal value (R201). -/
def feedbackBand (cfg : Config) (nominal : Nat) : Nat := nominal * cfg.fbBandPpm / 1000000

/-- The registers after `FBC` for a format (R201). -/
def seedFeedback (r : Rate) (d : Depth) (s : State) : State :=
  let nominal := (s.cfg.nominal.get r).get d
  { s with
    fb :=
      { value := nominal
        nominal := nominal
        min := nominal - feedbackBand s.cfg nominal
        max := nominal + feedbackBand s.cfg nominal
        target := s.cfg.fbTarget.get r
        lastTicks := 0
        haveLast := false
        configured := true } }

/-- The format in force: the stored pair while it is valid (R25, R128). -/
def activeFormat (s : State) : Option (Rate × Depth) :=
  match s.fmt.valid, s.fmt.rate, s.fmt.depth with
  | true, some r, some d => some (r, d)
  | _, _, _ => none

/-- The body of `FBC` (R201): its status and the state after it. -/
def configureFeedback (s : State) : Status × State :=
  match activeFormat s with
  | none => (.formatErr, s)
  | some (r, d) => (.ok, seedFeedback r d s)

/-- The glitch test of `FBU` (R202). -/
def isGlitch (tick : Word) (s : State) : Bool :=
  s.fb.haveLast &&
    decide (s.cfg.fbGlitchPpm * s.fb.lastTicks.toNat
      < ((tick.toNat : Int) - (s.fb.lastTicks.toNat : Int)).natAbs * 1000000)

/-- The clamped error of `FBU` with queue total `total` at a rate (R202). -/
def feedbackError (r : Rate) (total : Nat) (s : State) : Int :=
  clamp ((s.fb.target : Int) - asr total r.stages) (-s.cfg.fbErrLimit) s.cfg.fbErrLimit

/-- The corrected and clamped feedback value of `FBU` (R202). -/
def correctedValue (r : Rate) (total : Nat) (s : State) : Nat :=
  (clamp ((s.fb.nominal : Int) + feedbackError r total s * (s.cfg.fbErrScale : Int)) s.fb.min s.fb.max).toNat

/-- The body of `FBU` with the queue total its step 1 read (R78, R202): its status and the state after it. -/
def updateFeedback (tick : Word) (total : Nat) (s : State) : Status × State :=
  match activeFormat s with
  | none => (.formatErr, s)
  | some (r, _) =>
    if s.fb.configured then
      let s' : State := { s with fb := { s.fb with lastTicks := tick, haveLast := true } }
      if isGlitch tick s then (.fbGlitch, s')
      else (.ok, { s' with fb := { s'.fb with value := correctedValue r total s } })
    else (.formatErr, s)

/-! Parts of the cycles (R224, R228). -/

/-- `PCY` line 1: the request for a modulator reset (R42). -/
def askModulatorReset (s : State) : State := { s with dsResetReq := true }

/-- `PCY` line 1 (R224): take the signal; when it was set, reset the cascade, ask for the modulator reset, configure the
feedback. -/
def takeSignal (s : State) : State :=
  if s.fv.updated then (configureFeedback (askModulatorReset (zeroCascade (takeUpdated s)))).2 else takeUpdated s

/-- `PCY` line 6, backpressure: at occupancy `BACKPRESSURE_LEVEL` or more (the device's is `N_SLOTS - 1`) the block loses
its last pair, or as many of its last pairs as the configuration says, down to none left (R225, R166). -/
def backpressure (cfg : Config) (occ0 : Nat) (y : Block) : Block :=
  if cfg.backpressureLevel ≤ occ0 then y.take (y.length - cfg.backpressurePairs) else y

/-- `PCY` line 9: the status of the cycle (R224, R226). -/
def cycleStatus (feedback queue : Status) : Status :=
  if queue ≠ .ok then queue else if feedback = .fbGlitch then .fbGlitch else .ok

/-- `CCY` line 1: the take of the reset request (R42). -/
def takeResetRequest (s : State) : State := { s with dsResetReq := false }

/-- Whether this consumer cycle enters `MUTED` (R168). -/
abbrev entersMute (s : State) : Prop := s.mute = .playing ∧ s.q.occ = 0

/-- The mute-entry section: `MUTED`, and the queue reset from the consumer's side (R168). -/
def enterMute (s : State) : State :=
  { s with mute := .muted, q := { s.q with rc := s.q.wc, occ := 0, total := 0 } }

/-- The end of `MUTED` (R167). -/
def leaveMute (s : State) : State := { s with mute := .playing }

/-- A block of silence (R169, R229). -/
def silence (cfg : Config) : Block := List.replicate cfg.silenceLen Pair.zero

/-- Output word pairs leave for the physical output stage with the family line's level (R230). -/
def emit (ws : List (Word × Word)) (s : State) : State :=
  { s with emitted := s.emitted ++ ws.map (fun w => ⟨w.1, w.2, s.family⟩) }

/-- The end of a consumer cycle whose pairs were all encoded (R228). DESIGN CHOICE (log 9): the cycle's pairs join the
stream together, here, and not one after each `DSE`. -/
def finishEncoding (st : Status) (ws : List (Word × Word)) (s : State) : State :=
  (emit ws s).respond (Reply.withWords st ws)

/-- The end of a consumer cycle that an integrator overflow cut off: no output block in the response (R101), and what
the output stage sees of the cycle is unspecified (R228, R260). -/
def finishOverflow (s : State) : State :=
  (emit (Config.freeEmission s.freeCount) { s with freeCount := s.freeCount + 1 }).respond (Reply.plain .dsOverflow [])

end Sys2Proof.Machine
end

