-- ==== Sys2Proof/Machine/Cascade.lean ====
section
/-! DEFINITION. The oversampling cascade: OSR, OSS, OSA, OSZ (spec/41_oversampling_cascade.md). -/

namespace Sys2Proof.Machine

/-- `OSR s`: reset one stage (R142). Stage 3 to 15 is refused with `ILLEGAL`. -/
def execOsr (stage : BitVec 4) (s : State) : Result :=
  s.gate .osr fun s =>
    match Stage.ofIndex stage with
    | none => s.raise .illegal []
    | some st => (zeroStage st s).done []

/-- `OSS s, len`: run one stage over a block (R143). The stage index is checked before the width (R262). -/
def execOss (stage : BitVec 4) (block : Block) (s : State) : Result :=
  s.gate .oss fun s =>
    match Stage.ofIndex stage with
    | none => s.raise .illegal []
    | some st =>
      if s.cfg.frameMax < 2 * block.length then s.raise .widthErr []
      else
        let r := runStage st block s
        .next (r.1.respond (Reply.withBlock [] r.2))

/-- `OSA rc, len`: run the cascade over a block (R144). The rate code is checked before the width (R262). -/
def execOsa (rateCode : BitVec 4) (block : Block) (s : State) : Result :=
  s.gate .osa fun s =>
    match Rate.ofCode rateCode with
    | none => s.raise .formatErr []
    | some rate =>
      if s.cfg.frameMax < block.length * 2 ^ rate.stages then s.raise .widthErr []
      else
        let r := runCascade rate block s
        .next (r.1.respond (Reply.withBlock [] r.2))

/-- `OSZ`: reset the cascade (R145). -/
def execOsz (s : State) : Result :=
  s.gate .osz fun s => (zeroCascade s).done []

end Sys2Proof.Machine
end

