-- ==== Sys2Proof/Machine/Encoder.lean ====
section
/-! DEFINITION. The delta-sigma / PWM encoder: DSE, DSZ (spec/43_encoder.md). -/

namespace Sys2Proof.Machine

/-- `DSE`: encode one pair (R184). On an integrator overflow it ends with `DS_OVERFLOW`, and its two output words are
unspecified (R187): free values, of the draw that lost the modulator. -/
def execDse (left right : Word) (s : State) : Result :=
  s.gate .dse fun s =>
    match encodePair ⟨left, right⟩ s with
    | (some (wl, wr), s') => s'.done [wl, wr]
    | (none, s') => s'.raise .dsOverflow [(freeWords s).1, (freeWords s).2]

/-- `DSZ`: reset the modulator (R186). -/
def execDsz (s : State) : Result :=
  s.gate .dsz fun s => (zeroModulator s).done []

end Sys2Proof.Machine
end

