-- ==== Sys2Proof/Machine/FeedbackOps.lean ====
section
/-! DEFINITION. The rate feedback controller: FBC, FBU, FBR (spec/44_rate_feedback.md). -/

namespace Sys2Proof.Machine

/-- `FBC`: configure the feedback for the active format (R201). -/
def execFbc (s : State) : Result :=
  s.gate .fbc fun s => (configureFeedback s).2.raise (configureFeedback s).1 []

/-- The end of an `FBU` with the queue total read in its step 1: the result word is `fb.value` after it (R103,
R202). -/
def finishUpdate (tick : Word) (total : Nat) (s : State) : Result :=
  (updateFeedback tick total s).2.raise (updateFeedback tick total s).1 [natWord (updateFeedback tick total s).2.fb.value]

/-- `FBU`: update the feedback value (R202). -/
def execFbu (tick : Word) (s : State) : Result :=
  s.gate .fbu fun s => finishUpdate tick s.q.total s

/-- `FBR`: read the feedback value (R203). -/
def execFbr (s : State) : Result :=
  s.gate .fbr fun s => s.done [natWord s.fb.value]

end Sys2Proof.Machine
end

