-- ==== Sys2Proof/Machine/Pipeline.lean ====
section
/-! DEFINITION. The two cycles: PCY, CCY (spec/45_pipeline.md R220 to R230). -/

namespace Sys2Proof.Machine

/-- Lines 5 and 6 of `PCY`: the oversampled block, shortened under backpressure, and the state after them (R224,
R225). -/
def oversampleForQueue (rate : Rate) (x : Block) (occ0 : Nat) (s : State) : State × Block :=
  let r := runCascade rate x s
  (r.1, backpressure s.cfg occ0 r.2)

/-- Line 8 of `PCY`: enqueue the block unless it is empty (R224). -/
def enqueueCycle (rate : Rate) (y : Block) (s : State) : Except Fault (Status × State) :=
  if y = [] then .ok (.ok, s) else enqueue rate.family y s

/-- Lines 5 to 9 of `PCY` (R224). -/
def processBlock (tick : Word) (rate : Rate) (x : Block) (s : State) : Result :=
  let y := oversampleForQueue rate x s.q.occ s
  let f := updateFeedback tick y.1.q.total y.1
  match enqueueCycle rate y.2 f.2 with
  | .error e => .fault e
  | .ok (st, s') => s'.raise (cycleStatus f.1 st) []

/-- Lines 2 to 9 of `PCY`: the two checks, then the block (R224). -/
def cycleBody (tick : Word) (raw : Block) (s : State) : Result :=
  match activeFormat s with
  | none => s.raise .formatErr []
  | some (rate, depth) =>
    if s.cfg.frameMax < raw.length * 2 ^ rate.stages then s.raise .widthErr []
    else processBlock tick rate (rawBlock s.cfg depth raw) s

/-- `PCY len`: one producer cycle, all of its steps together (R224). -/
def execPcy (tick : Word) (raw : Block) (s : State) : Result :=
  s.gate .pcy fun s => cycleBody tick raw (takeSignal s)

/-- Encode a block and end the consumer cycle (R228 lines 3 and 5, R229). -/
def encodeAndFinish (st : Status) (b : Block) (s : State) : Result :=
  match encodeBlock b s with
  | (some ws, s') => .next (finishEncoding st ws s')
  | (none, s') => .next (finishOverflow s')

/-- Line 4 of `CCY` and then line 5 (R228). The dequeue "cannot fail": the last arm is for states that no run reaches. -/
def playFrame (s : State) : Result :=
  match dequeue s with
  | .error e => .fault e
  | .ok (some (_, b), s') => encodeAndFinish .ok b s'
  | .ok (none, s') => s'.raise .qEmpty []

/-- Line 1 of `CCY`: the take of the reset request and the modulator reset it asks for (R228). -/
def honourResetRequest (s : State) : State :=
  if s.dsResetReq then zeroModulator (takeResetRequest s) else takeResetRequest s

/-- Lines 2 to 5 of `CCY`: the mute state machine, then silence or a frame (R167, R228). -/
def muteAndPlay (s : State) : Result :=
  if entersMute s then
    -- line 3: o = 0 is below every legal play threshold
    encodeAndFinish .qEmpty (silence s.cfg) (zeroModulator (enterMute s))
  else if s.mute = .playing then playFrame s
  else if s.cfg.playThreshold ≤ s.q.occ then playFrame (leaveMute s)
  else encodeAndFinish .qEmpty (silence s.cfg) s

/-- `CCY`: one consumer cycle, all of its steps together (R228). -/
def execCcy (s : State) : Result :=
  s.gate .ccy fun s => muteAndPlay (honourResetRequest s)

end Sys2Proof.Machine
end

