-- ==== Sys2Proof/Machine/Queue.lean ====
section
/-! DEFINITION. The cross-context queue: QEN, QDE, QOC, QTS, QRS (spec/42_queue.md). -/

namespace Sys2Proof.Machine

/-- `QEN g, len`: enqueue a block, all of its steps together (R161). -/
def execQen (group : Family) (block : Block) (s : State) : Result :=
  s.gate .qen fun s =>
    match enqueue group block s with
    | .error e => .fault e
    | .ok (st, s') => s'.raise st []

/-- The response of `QDE` for a frame: the group word and the block (R103, R162). -/
def dequeued (g : Family) (b : Block) : Reply := Reply.withBlock [flagWord g.bit] b

/-- `QDE`: dequeue the oldest frame, all of its steps together (R162). -/
def execQde (s : State) : Result :=
  s.gate .qde fun s =>
    match dequeue s with
    | .error e => .fault e
    | .ok (none, s') => s'.raise .qEmpty [0]
    | .ok (some (g, b), s') => .next (s'.respond (dequeued g b))

/-- `QOC`: the occupancy (R163). -/
def execQoc (s : State) : Result :=
  s.gate .qoc fun s => s.done [natWord s.q.occ]

/-- `QTS`: the total number of queued pairs (R164). -/
def execQts (s : State) : Result :=
  s.gate .qts fun s => s.done [natWord s.q.total]

/-- `QRS`: reset the queue (R165). Issued while the consumer is inside an operation it is a precondition violation
that the spec leaves undefined (R305, U12): the named fault `qrsRace`. -/
def execQrs (s : State) : Result :=
  s.gate .qrs fun s =>
    match s.portC.flight with
    | none => (resetQueue s).done []
    | some _ => .fault .qrsRace

end Sys2Proof.Machine
end

