-- ==== Sys2Proof/Machine/System.lean ====
section
/-! DEFINITION. INIT with the configuration invariants it checks, and RDS (spec/45_pipeline.md R232 to R236). -/

namespace Sys2Proof.Machine

/-- Invariant (16) for one rate and depth: the nominal value and its upper band edge fit 32 bits (R233). -/
def nominalFits (c : Config) (r : Rate) (d : Depth) : Bool :=
  decide ((c.nominal.get r).get d + feedbackBand c ((c.nominal.get r).get d) < 4294967296)

/-- Invariant (5): `H` increasing from at least 1, and as many coefficients as `H` says (R233). -/
def stagesFit (c : Config) : Bool :=
  decide (1 ≤ c.stage.s0.taps ∧ c.stage.s0.taps < c.stage.s1.taps ∧ c.stage.s1.taps < c.stage.s2.taps
    ∧ c.stage.s0.coef.length = c.stage.s0.taps ∧ c.stage.s1.coef.length = c.stage.s1.taps
    ∧ c.stage.s2.coef.length = c.stage.s2.taps)

/-- Invariant (16) for all rates and depths (R233). -/
def feedbackFits (c : Config) : Bool :=
  Rate.all.all fun r => Depth.all.all (nominalFits c r) && decide (c.fbTarget.get r < 4294967296)

/-- The configuration invariants `INIT` checks, (1) to (16) in order (R233). -/
def configOk (c : Config) : Bool :=
  decide (2 ≤ c.nSlots ∧ c.nSlots ≤ 255)
    && decide (1 ≤ c.frameMax ∧ c.frameMax ≤ 65535)
    && decide (0 < c.playThreshold ∧ c.playThreshold < c.nSlots)
    && decide (1 ≤ c.silenceLen ∧ c.silenceLen ≤ c.frameMax)
    && stagesFit c
    && decide (c.stage.s0.shift ≤ 31 ∧ c.stage.s1.shift ≤ 31 ∧ c.stage.s2.shift ≤ 31)
    && decide (c.dsM ≤ 5)
    && decide (4 ≤ c.dsW ∧ c.dsW ≤ 6)
    && decide (c.dsM < c.dsW)
    && decide ((c.dsN = 4 ∨ c.dsN = 8) ∧ c.dsN * c.dsW ≤ 32)
    && decide (c.dsLerp = 0 ∨ c.dsLerp = 1)
    && decide (25 ≤ c.dsInBits ∧ c.dsInBits ≤ c.intBits)
    && decide (0 < c.fRef ∧ 0 < c.fvWordPeriods ∧ 0 < c.fvBitPeriods)
    && decide (0 < c.ratio.d16 ∧ 0 < c.ratio.d24 ∧ 0 < c.ratio.d32
      ∧ c.ratio.d16 ≠ c.ratio.d24 ∧ c.ratio.d16 ≠ c.ratio.d32 ∧ c.ratio.d24 ≠ c.ratio.d32)
    && decide (0 < c.fbErrScale)
    && feedbackFits c

/-- The lifecycle after an `INIT` that ran (R232). -/
def initLife (c : Config) : Life := if configOk c then .ready else .failed

/-- The status of an `INIT` that ran (R232). -/
def initStatus (c : Config) : Status := if configOk c then .ok else .configErr

/-- `INIT`: check the configuration, once (R232). -/
def execInit (s : State) : Result :=
  s.gate .init fun s =>
    if s.life = .uninit then ({ s with life := initLife s.cfg } : State).raise (initStatus s.cfg) []
    else s.raise .illegal []

/-- `RDS n`: read a status register (R236). -/
def execRds (number : BitVec 16) (s : State) : Result :=
  s.gate .rds fun s =>
    match statusRegister s number.toNat with
    | some w => s.done [w]
    | none => s.raise .illegal [0]

end Sys2Proof.Machine
end

