-- ==== Sys2Proof/Machine/Validator.lean ====
section
/-! DEFINITION. The format validator: FVO, FVD, FVT (spec/40_format_validator.md). -/

namespace Sys2Proof.Machine

/-- `FVO`: observe a measurement (R123). `OK` when the observation validates, else `FORMAT_ERR` with the registers
written; the result word is `FMT` after the operation. -/
def execFvo (ww bw : Word) (s : State) : Result :=
  s.gate .fvo fun s =>
    let cr := candRate s.cfg ww
    let cd := candDepth s.cfg ww bw
    let s' := observe cr cd s
    s'.raise (if observationOk cr cd s then .ok else .formatErr) [fmtWord s']

/-- `FVD`: declare a format (R124). -/
def execFvd (rateHz depthBits : Word) (s : State) : Result :=
  s.gate .fvd fun s =>
    match declaredRate rateHz, declaredDepth depthBits with
    | some r, some d => (declareGood r d s).done [fmtWord (declareGood r d s)]
    | _, _ => (declareBad s).raise .formatErr [fmtWord (declareBad s)]

/-- `FVT`: take the format-updated signal (R125). -/
def execFvt (s : State) : Result :=
  s.gate .fvt fun s => (takeUpdated s).done [flagWord s.fv.updated]

end Sys2Proof.Machine
end

