-- ==== Sys2Proof/Machine/Dispatch.lean ====
section
/-! DEFINITION. One arm per operation: each calls the operation's meaning. -/

namespace Sys2Proof.Machine

def exec (i : Instr) (s : State) : Host.Outcome State Fault Refusal :=
  match i with
  | .fvo ww bw => Sys2Proof.Machine.execFvo ww bw s
  | .fvd rateHz depthBits => Sys2Proof.Machine.execFvd rateHz depthBits s
  | .fvt => Sys2Proof.Machine.execFvt s
  | .osr stage => Sys2Proof.Machine.execOsr stage s
  | .oss stage block => Sys2Proof.Machine.execOss stage block s
  | .osa rateCode block => Sys2Proof.Machine.execOsa rateCode block s
  | .osz => Sys2Proof.Machine.execOsz s
  | .qen group block => Sys2Proof.Machine.execQen group block s
  | .qde => Sys2Proof.Machine.execQde s
  | .qoc => Sys2Proof.Machine.execQoc s
  | .qts => Sys2Proof.Machine.execQts s
  | .qrs => Sys2Proof.Machine.execQrs s
  | .dse left right => Sys2Proof.Machine.execDse left right s
  | .dsz => Sys2Proof.Machine.execDsz s
  | .fbc => Sys2Proof.Machine.execFbc s
  | .fbu tick => Sys2Proof.Machine.execFbu tick s
  | .fbr => Sys2Proof.Machine.execFbr s
  | .pcy tick raw => Sys2Proof.Machine.execPcy tick raw s
  | .ccy => Sys2Proof.Machine.execCcy s
  | .init => Sys2Proof.Machine.execInit s
  | .rds number => Sys2Proof.Machine.execRds number s

end Sys2Proof.Machine
end

