-- ==== Sys2Proof/Machine/Interleave.lean ====
section
/-! DEFINITION. Operations step by step (R71, R78): the first step of an operation, and the next step of one in flight. Each step is made of the same shared operations as the whole meanings. -/

namespace Sys2Proof.Machine

/-- The issuing port goes on with an operation in its next turn. -/
def State.goOn (s : State) (f : Flight) : Result := .next (s.setPort s.issuer { s.port s.issuer with flight := some f })

/-- The issuing port has no operation in flight any more. -/
def State.land (s : State) : State := s.setPort s.issuer { s.port s.issuer with flight := none }

/-- The end of an enqueue with a status, for the command or for the cycle it serves (R161, R224 line 9). -/
def endEnqueue (caller : EnqueueFor) (st : Status) (s : State) : Result :=
  match caller with
  | .command => s.land.raise st []
  | .cycle feedback => s.land.raise (cycleStatus feedback st) []

/-- Step 1 of `QEN`, after its width check (R161, R262). -/
def beginEnqueue (caller : EnqueueFor) (g : Family) (b : Block) (s : State) : Result :=
  if b = [] ∨ s.cfg.frameMax < b.length then endEnqueue caller .widthErr s
  else if queueFull s then endEnqueue caller .qFull s
  else s.goOn (.enqWrite caller g b 0)

/-- One payload step of `QEN`: pair `j`, or the header after the last pair (R161 step 2). -/
def stepEnqueueWrite (caller : EnqueueFor) (g : Family) (b : Block) (j : Nat) (s : State) : Result :=
  match b[j]? with
  | some p =>
    match slotWrite s.cfg s.q.data s.q.wc j p with
    | .error e => .fault e
    | .ok m => ({ s with q := { s.q with data := m } } : State).goOn (.enqWrite caller g b (j + 1))
  | none => (writeHeader g b.length s).goOn (.enqCommit caller g b)

/-- The end of a dequeue: the command's response, or line 5 of the cycle (R162, R228). -/
def endDequeue (caller : DequeueFor) (g : Family) (b : Block) (s : State) : Result :=
  match caller with
  | .command => .next (s.land.respond (dequeued g b))
  | .cycle => s.goOn (.ccyEncode b [] .ok)

/-- Step 1 of `QDE` (R162). -/
def beginDequeue (caller : DequeueFor) (s : State) : Result :=
  if s.q.occ = 0 then
    match caller with
    | .command => s.land.raise .qEmpty [0]
    | .cycle => s.land.raise .qEmpty []
  else s.goOn (.deqHeader caller)

/-- One payload step of `QDE`, or its commit after the last pair (R162 steps 2 and 3). -/
def stepDequeueRead (caller : DequeueFor) (g : Family) (n : Nat) (got : Block) (s : State) : Result :=
  if got.length < n then
    match slotRead s.cfg s.q.data s.q.rc got.length with
    | .error e => .fault e
    | .ok p => s.goOn (.deqRead caller g n (got ++ [p]))
  else (commitDequeue n s).goOn (.deqFamily caller g got)

/-- First step of `PCY`: the take of `fv.updated` (R224 line 1). -/
def beginCycle (tick : Word) (raw : Block) (s : State) : Result :=
  if s.fv.updated then (takeUpdated s).goOn (.pcyZero tick raw) else (takeUpdated s).goOn (.pcyOccupancy tick raw)

/-- `PCY` lines 2 to 4: the checks read only the producer's own registers, so they are one step with the occupancy
snapshot (R77, R224). -/
def stepCycleOccupancy (tick : Word) (raw : Block) (s : State) : Result :=
  match activeFormat s with
  | none => s.land.raise .formatErr []
  | some (rate, depth) =>
    if s.cfg.frameMax < raw.length * 2 ^ rate.stages then s.land.raise .widthErr []
    else s.goOn (.pcyOversample tick rate (rawBlock s.cfg depth raw) s.q.occ)

/-- `PCY` line 7, second step of `FBU`, and where the cycle goes from there (R224). -/
def stepCycleUpdate (tick : Word) (rate : Rate) (y : Block) (total : Nat) (s : State) : Result :=
  let f := updateFeedback tick total s
  if y = [] then f.2.land.raise (cycleStatus f.1 .ok) [] else f.2.goOn (.pcyEnqueue rate y f.1)

/-- First step of `CCY`: the take of `x.ds_reset_req` (R228 line 1). -/
def beginConsume (s : State) : Result :=
  if s.dsResetReq then (takeResetRequest s).goOn .ccyZero else (takeResetRequest s).goOn .ccyMute

/-- `CCY` lines 2 and 3: the occupancy read, the mute transition and the mute-entry queue reset are together one step
(R78). -/
def stepMute (s : State) : Result :=
  if entersMute s then (enterMute s).goOn .ccyEntryZero
  else if s.mute = .playing then s.goOn .ccyDequeue
  else if s.cfg.playThreshold ≤ s.q.occ then (leaveMute s).goOn .ccyDequeue
  else s.goOn (.ccyEncode (silence s.cfg) [] .qEmpty)

/-- `CCY` line 5: one pair, or the end of the cycle after the last one (R228). DESIGN CHOICE (log 9): the words of the
pairs encoded so far stay with the operation until its last step, which emits them all. -/
def stepEncode (todo : Block) (words : List (Word × Word)) (st : Status) (s : State) : Result :=
  match todo with
  | [] => .next (finishEncoding st words s.land)
  | p :: rest =>
    match encodePair p s with
    | (some w, s') => s'.goOn (.ccyEncode rest (words ++ [w]) st)
    | (none, s') => .next (finishOverflow s'.land)

/-- The next step of an operation in flight on the issuing port (R78). -/
def advance (f : Flight) (s : State) : Result :=
  match f with
  | .enqWrite caller g b j => stepEnqueueWrite caller g b j s
  | .enqCommit caller _ b => endEnqueue caller .ok (commitEnqueue b.length s)
  | .deqHeader caller => s.goOn (.deqRead caller (s.q.header s.q.rc).group (s.q.header s.q.rc).len [])
  | .deqRead caller g n got => stepDequeueRead caller g n got s
  | .deqFamily caller g b => endDequeue caller g b (setFamily g s)
  | .fbuRest tick total => finishUpdate tick total s.land
  | .pcyZero tick raw => (zeroCascade s).goOn (.pcyAsk tick raw)
  | .pcyAsk tick raw => (askModulatorReset s).goOn (.pcyFeedback tick raw)
  | .pcyFeedback tick raw => (configureFeedback s).2.goOn (.pcyOccupancy tick raw)
  | .pcyOccupancy tick raw => stepCycleOccupancy tick raw s
  | .pcyOversample tick rate x occ0 =>
    (oversampleForQueue rate x occ0 s).1.goOn (.pcyTotal tick rate (oversampleForQueue rate x occ0 s).2)
  | .pcyTotal tick rate y => s.goOn (.pcyUpdate tick rate y s.q.total)
  | .pcyUpdate tick rate y total => stepCycleUpdate tick rate y total s
  | .pcyEnqueue rate y feedback => beginEnqueue (.cycle feedback) rate.family y s
  | .ccyZero => (zeroModulator s).goOn .ccyMute
  | .ccyMute => stepMute s
  | .ccyEntryZero => (zeroModulator s).goOn (.ccyEncode (silence s.cfg) [] .qEmpty)
  | .ccyDequeue => beginDequeue .cycle s
  | .ccyEncode todo words st => stepEncode todo words st s

/-- The first step of an operation: for an operation that is one step, all of it (R78). -/
def begin (i : Instr) (s : State) : Result :=
  match i with
  | .qen g b => s.gate .qen (beginEnqueue .command g b)
  | .qde => s.gate .qde (beginDequeue .command)
  | .fbu tick => s.gate .fbu fun s => s.goOn (.fbuRest tick s.q.total)
  | .pcy tick raw => s.gate .pcy (beginCycle tick raw)
  | .ccy => s.gate .ccy beginConsume
  | .fvo ww bw => exec (.fvo ww bw) s
  | .fvd rateHz depthBits => exec (.fvd rateHz depthBits) s
  | .fvt => exec .fvt s
  | .osr stage => exec (.osr stage) s
  | .oss stage block => exec (.oss stage block) s
  | .osa rateCode block => exec (.osa rateCode block) s
  | .osz => exec .osz s
  | .qoc => exec .qoc s
  | .qts => exec .qts s
  | .qrs => exec .qrs s
  | .dse left right => exec (.dse left right) s
  | .dsz => exec .dsz s
  | .fbc => exec .fbc s
  | .fbr => exec .fbr s
  | .init => exec .init s
  | .rds number => exec (.rds number) s

/-- How an agent's turn starts an operation: all of it, or its first step. -/
def start (g : Grain) (i : Instr) (s : State) : Result :=
  match g with
  | .whole => exec i s
  | .single => begin i s

/-- The issuing port's stream after its next words are consumed. -/
def State.consume (s : State) (rest : List Word) : State :=
  s.setPort s.issuer { s.port s.issuer with input := rest }

/-- An agent with no operation in flight reads its next command (R104): a command word that no row matches is answered
with the status word alone and nothing after it is consumed; where no whole command has arrived, the agent waits. -/
def fetch (g : Grain) (s : State) : Result :=
  match decode (s.port s.issuer).input with
  | .ok (i, rest) => start g i (s.consume rest)
  | .error .noCommand => .next s
  | .error .incomplete => .next s
  | .error .unassignedOpcode => (s.consume (s.port s.issuer).input.tail).raise .illegal []
  | .error .unusedFieldNotZero => (s.consume (s.port s.issuer).input.tail).raise .illegal []

/-- One turn of an agent: the next step of its operation in flight, or its next command. -/
def takeTurn (g : Grain) (s : State) : Result :=
  match (s.port s.issuer).flight with
  | some f => advance f s
  | none => fetch g s

/-- The port that a table instruction is placed on so that it is accepted (R270). -/
def portFor (w : Word) : Port :=
  match rowOf (Fields.ofWord w) with
  | .ok row => (ports row).headD .p
  | .error _ => .p

end Sys2Proof.Machine
end

