-- ==== Sys2Proof/Machine/Step.lean ====
section
/-! DEFINITION. One step of the machine: the next turn of the schedule (R71). With nothing scheduled the block waits for commands (R290). -/

namespace Sys2Proof.Machine

/-- One step. -/
def step (s : State) : Host.Outcome State Fault Refusal :=
  match s.sched with
  | [] => .next s
  | turn :: rest => takeTurn turn.grain { s with sched := rest, issuer := turn.port }

/-- The state with a table instruction as the next command of the port that accepts it, that port idle, and its turn
next. -/
def State.withFetchWord (s : State) (nbits w : Nat) : State :=
  let port := portFor (BitVec.ofNat 32 (w % 2 ^ nbits))
  let v := s.port port
  let s' := s.setPort port { v with input := tableWords nbits w ++ v.input, flight := none }
  { s' with sched := ⟨port, .whole⟩ :: s'.sched }

end Sys2Proof.Machine
end

