-- ==== Sys2Proof/Safety.lean ====
section
/-! DEFINITION. The terms the claims use: the invariants of the machine, what each operation may write (R50), the operations run one after another, and the reference readings of a stage and of the noise shaper. -/

namespace Sys2Proof.Machine

/-- The issuing port is `x` and the block is `READY`: checks (2) and (3) of R262 are passed by every operation that
`x` accepts. -/
abbrev Ready (x : Port) (s : State) : Prop := s.issuer = x ∧ s.life = .ready

/-- A result followed by what comes next, when it is a next state. -/
def andThen (r : Result) (f : State → Result) : Result :=
  match r with
  | .next t => f t
  | .fault e => .fault e
  | .refused e => .refused e

/-- Operations on the issuing port, one after another. -/
def execAll : List Instr → State → Result
  | [], s => .next s
  | i :: is, s => andThen (exec i s) (execAll is)

/-- An operation's steps with no step of another agent between them: at most `n` more steps of the issuing port's
operation in flight. -/
def finishFlight : Nat → State → Result
  | 0, s => .next s
  | n + 1, s =>
    match (s.port s.issuer).flight with
    | none => .next s
    | some f => andThen (advance f s) (finishFlight n)

/-! Invariants. -/

/-- No operation is in flight before the block is `READY`, and it is `READY` only with a configuration that `INIT`
accepted (R23, R232). -/
def LifecycleInv (s : State) : Prop :=
  (s.life = .ready → configOk s.cfg = true) ∧
  (s.life ≠ .ready → s.portP.flight = none ∧ s.portC.flight = none ∧ s.portT.flight = none)

/-- R25: a valid format is a rate and a depth, and they are the last candidates. -/
def FormatInv (s : State) : Prop :=
  s.fmt.valid = true →
    s.fmt.rate ≠ none ∧ s.fmt.depth ≠ none ∧ s.fv.prevRate = s.fmt.rate ∧ s.fv.prevDepth = s.fmt.depth

/-- R204 and the widths of R44: the feedback registers fit 32 bits, and once configured the value lies in the band around
the nominal value. -/
def FeedbackInv (s : State) : Prop :=
  LifecycleInv s ∧
  s.fb.value < 4294967296 ∧ s.fb.nominal < 4294967296 ∧ s.fb.min < 4294967296 ∧ s.fb.max < 4294967296 ∧
  s.fb.target < 4294967296 ∧
  (s.fb.configured = true →
    s.fb.min ≤ s.fb.value ∧ s.fb.value ≤ s.fb.max ∧
    s.fb.min = s.fb.nominal - feedbackBand s.cfg s.fb.nominal ∧
    s.fb.max = s.fb.nominal + feedbackBand s.cfg s.fb.nominal)

/-- One stage keeps its delay line at `L[s]` cells and its cursor inside it (R31). -/
def StageShape (length : Nat) (f : FilterState) : Prop := f.dl.length = length ∧ (f.cur < length ∨ f.cur = 0)

/-- One channel keeps `DS_M` integrators, each inside its register (R33, R183). -/
def ChannelShape (cfg : Config) (c : Channel) : Prop :=
  c.integ.length = cfg.dsM ∧ ∀ v ∈ c.integ, fitsIntegrator cfg v = true

/-- The delay lines, cursors and integrators have the shape of the configuration (R31, R33). -/
def ShapeInv (s : State) : Prop :=
  LifecycleInv s ∧
  (∀ st, StageShape (s.cfg.lineLength st) (s.os.get st)) ∧
  ChannelShape s.cfg s.ds.left ∧ ChannelShape s.cfg s.ds.right

/-- The number of the slot that holds the `k`-th queued frame, counted from the read cursor (R37). -/
def frameSlot (s : State) (k : Nat) : Nat := (s.q.rc + k) % s.cfg.nSlots

/-- The pairs of the first `n` queued frames together (R37). -/
def queuedPairs (s : State) : Nat → Nat
  | 0 => 0
  | n + 1 => queuedPairs s n + (s.q.header (frameSlot s n)).len

/-- Pair `j` of slot `i`, where it has been written. -/
def slotPair (s : State) (i j : Nat) : Option Pair := s.q.data.read (slotCell s.cfg i j)

/-- A queued frame: not empty, not wider than `FRAME_MAX`, every pair written (R35, R161). -/
def FrameStored (s : State) (i : Nat) : Prop :=
  1 ≤ (s.q.header i).len ∧ (s.q.header i).len ≤ s.cfg.frameMax ∧
  ∀ j, j < (s.q.header i).len → slotPair s i j ≠ none

/-- The first `n` pairs of a block stand in slot `i`. -/
def PrefixStored (s : State) (i : Nat) (b : Block) (n : Nat) : Prop := ∀ j, j < n → slotPair s i j = b[j]?

/-- What an operation in flight on the `P` port has established about the queue: between its check and its commit a
`QEN` has room and its pairs so far are in the slot at the write cursor (R73, R161). It never is a consumer's. -/
def ProducerFlight (s : State) : Flight → Prop
  | .enqWrite _ _ b j =>
    b ≠ [] ∧ b.length ≤ s.cfg.frameMax ∧ j ≤ b.length ∧ s.q.occ < s.cfg.nSlots ∧ PrefixStored s s.q.wc b j
  | .enqCommit _ g b =>
    b ≠ [] ∧ b.length ≤ s.cfg.frameMax ∧ s.q.occ < s.cfg.nSlots ∧ PrefixStored s s.q.wc b b.length ∧
    s.q.header s.q.wc = ⟨b.length, g⟩
  | .fbuRest _ _ | .pcyZero _ _ | .pcyAsk _ _ | .pcyFeedback _ _ | .pcyOccupancy _ _ | .pcyOversample _ _ _ _
  | .pcyTotal _ _ _ | .pcyUpdate _ _ _ _ | .pcyEnqueue _ _ _ => True
  | .deqHeader _ | .deqRead _ _ _ _ | .deqFamily _ _ _ | .ccyZero | .ccyMute | .ccyEntryZero | .ccyDequeue
  | .ccyEncode _ _ _ => False

/-- What an operation in flight on the `C` port has established about the queue: between its check and its commit a
`QDE` has a frame and its pairs so far are those of the slot at the read cursor (R73, R162). It never is a
producer's. -/
def ConsumerFlight (s : State) : Flight → Prop
  | .deqHeader _ => 0 < s.q.occ
  | .deqRead _ g n got =>
    0 < s.q.occ ∧ s.q.header s.q.rc = ⟨n, g⟩ ∧ got.length ≤ n ∧ PrefixStored s s.q.rc got got.length
  | .deqFamily _ _ _ | .ccyZero | .ccyMute | .ccyEntryZero | .ccyDequeue | .ccyEncode _ _ _ => True
  | .enqWrite _ _ _ _ | .enqCommit _ _ _ | .fbuRest _ _ | .pcyZero _ _ | .pcyAsk _ _ | .pcyFeedback _ _
  | .pcyOccupancy _ _ | .pcyOversample _ _ _ _ | .pcyTotal _ _ _ | .pcyUpdate _ _ _ _ | .pcyEnqueue _ _ _ => False

/-- The ring invariant of R37 and the exclusive-access argument of R74, at every step boundary of every interleaving. -/
structure RingHolds (s : State) : Prop where
  headers : s.q.hdr.length = s.cfg.nSlots
  writeCursor : s.q.wc < s.cfg.nSlots
  readCursor : s.q.rc < s.cfg.nSlots
  occupancy : s.q.occ ≤ s.cfg.nSlots
  cursors : s.q.wc = (s.q.rc + s.q.occ) % s.cfg.nSlots
  total : s.q.total = queuedPairs s s.q.occ
  frames : ∀ k, k < s.q.occ → FrameStored s (frameSlot s k)
  producer : ∀ f, s.portP.flight = some f → ProducerFlight s f
  consumer : ∀ f, s.portC.flight = some f → ConsumerFlight s f
  reader : s.portT.flight = none

/-- The queue of every state a run reaches: untouched before the block is `READY`, then the ring invariant; the lock
is free and the slot memory canonical at every step boundary (R37, R38). -/
def RingInv (s : State) : Prop :=
  LifecycleInv s ∧ s.q.lock = .free ∧ s.q.data.wf ∧
  (s.life = .ready → RingHolds s) ∧ (s.life ≠ .ready → s.q = Queue.atReset s.cfg)

/-! What an operation may write (R50). -/

/-- The pieces of state that R50 names. -/
inductive Item
  | life | fmt | fvPrev | fvUpdated | stage (st : Stage) | modulator | slots | writeCursor | readCursor | occupancy
  | total | family | mute | resetRequest | feedbackValue | feedbackTicks | feedbackBounds
deriving DecidableEq, Repr

/-- Two states agree on a piece of state. -/
def Item.same (s t : State) : Item → Prop
  | .life => t.life = s.life
  | .fmt => t.fmt = s.fmt
  | .fvPrev => t.fv.prevRate = s.fv.prevRate ∧ t.fv.prevDepth = s.fv.prevDepth
  | .fvUpdated => t.fv.updated = s.fv.updated
  | .stage st => t.os.get st = s.os.get st
  | .modulator => t.ds = s.ds
  | .slots => t.q.hdr = s.q.hdr ∧ t.q.data = s.q.data ∧ t.q.lock = s.q.lock
  | .writeCursor => t.q.wc = s.q.wc
  | .readCursor => t.q.rc = s.q.rc
  | .occupancy => t.q.occ = s.q.occ
  | .total => t.q.total = s.q.total
  | .family => t.family = s.family
  | .mute => t.mute = s.mute
  | .resetRequest => t.dsResetReq = s.dsResetReq
  | .feedbackValue => t.fb.value = s.fb.value
  | .feedbackTicks => t.fb.lastTicks = s.fb.lastTicks ∧ t.fb.haveLast = s.fb.haveLast
  | .feedbackBounds =>
    t.fb.nominal = s.fb.nominal ∧ t.fb.min = s.fb.min ∧ t.fb.max = s.fb.max ∧ t.fb.target = s.fb.target ∧
    t.fb.configured = s.fb.configured

/-- The stages that a stage index names. -/
def stageItems (a : BitVec 4) : List Item := (Stage.ofIndex a).toList.map .stage

/-- The "writes" column of R50, with the stage or the active stages that the operation names. -/
def mayWrite : Instr → List Item
  | .fvo _ _ | .fvd _ _ => [.fvPrev, .fmt, .fvUpdated]
  | .fvt => [.fvUpdated]
  | .osr a => stageItems a
  | .oss a _ => stageItems a
  | .osa rc _ => (Rate.ofCode rc).toList.flatMap fun r => (Stage.firstStages r.stages).map .stage
  | .osz => [.stage .s0, .stage .s1, .stage .s2]
  | .qen _ _ => [.slots, .writeCursor, .occupancy, .total]
  | .qde => [.readCursor, .occupancy, .total, .family]
  | .qrs => [.writeCursor, .readCursor, .occupancy, .total, .slots]
  | .dse _ _ | .dsz => [.modulator]
  | .fbc => [.feedbackValue, .feedbackTicks, .feedbackBounds]
  | .fbu _ => [.feedbackValue, .feedbackTicks]
  | .pcy _ _ =>
    [.fvUpdated, .stage .s0, .stage .s1, .stage .s2, .slots, .writeCursor, .occupancy, .total, .feedbackValue,
     .feedbackTicks, .feedbackBounds, .resetRequest]
  | .ccy => [.readCursor, .occupancy, .total, .family, .modulator, .mute, .resetRequest]
  | .init => [.life]
  | .qoc | .qts | .fbr | .rds _ => []

/-- The pieces of state whose writing agent is the producer, or `SYS` on its port (R22). -/
def producerItems : List Item :=
  [.life, .fmt, .fvPrev, .fvUpdated, .stage .s0, .stage .s1, .stage .s2, .slots, .writeCursor, .feedbackValue,
   .feedbackTicks, .feedbackBounds]

/-- The pieces of state whose writing agent is the consumer and that no `SYS` operation writes (R22). -/
def consumerItems : List Item := [.modulator, .family, .mute]

/-- The pieces of state that both agents write, inside a critical section only (R22). -/
def sharedItems : List Item := [.occupancy, .total, .resetRequest]

/-- How an operation of the issuing port ends: nothing outside `written` changes, the response is added to the issuing
port's output, `stream` is what it sends to the physical output stage and `draws` how many free values it draws. The
configuration, the schedule, the other ports and the issuing port's input stay. -/
structure Ends (written : List Item) (response : List Word) (stream : List Emission) (draws : Nat) (s t : State) :
    Prop where
  rest : ∀ x, x ∉ written → x.same s t
  configuration : t.cfg = s.cfg
  issuer : t.issuer = s.issuer
  schedule : t.sched = s.sched
  otherPorts : ∀ y, y ≠ s.issuer → t.port y = s.port y
  input : (t.port s.issuer).input = (s.port s.issuer).input
  flight : (t.port s.issuer).flight = (s.port s.issuer).flight
  output : (t.port s.issuer).output = (s.port s.issuer).output ++ response
  emitted : t.emitted = s.emitted ++ stream
  draws : t.freeCount = s.freeCount + draws

/-- A block given to `DSE` pair by pair, after a `DSZ` when one is asked for (R228 lines 1 and 5). -/
def encodeOps (reset : Bool) (b : Block) : List Instr :=
  (if reset then [.dsz] else []) ++ b.map fun p => .dse p.l p.r

/-- What those operations answer when none overflows and each pair gives its word pair. -/
def encodeAnswers (reset : Bool) (ws : List (Word × Word)) : List Word :=
  (if reset then [statusWord .ok 0] else []) ++ ws.flatMap fun w => [statusWord .ok 0, w.1, w.2]

/-- How a consumer cycle that encodes `b` ends (R228 line 5, R229): with the words and the modulator of `DSE` on each pair
in turn, sent out with the level `family`; or, when one of them overflows, with `DS_OVERFLOW`, and then what is sent out is
free (log 1). -/
def CycleEncodes (written : List Item) (st : Status) (family : Family) (reset : Bool) (b : Block) (s t : State) : Prop :=
  ∃ u, execAll (encodeOps reset b) s = .next u ∧
    ((∃ ws : List (Word × Word), ws.length = b.length ∧
        u.portC.output = s.portC.output ++ encodeAnswers reset ws ∧ t.ds = u.ds ∧
        Ends written (statusWord st b.length :: pairWords ws) (ws.map fun w => ⟨w.1, w.2, family⟩)
          (u.freeCount - s.freeCount) s t) ∨
      ((∀ ws : List (Word × Word), ws.length = b.length →
          u.portC.output ≠ s.portC.output ++ encodeAnswers reset ws) ∧
        t.ds.lost = true ∧
        ∃ stream draws, Ends written [statusWord .dsOverflow 0] stream draws s t))

/-- The queued frames, oldest first: group and pairs of each (R37). -/
def frames (s : State) : List (Family × List (Option Pair)) :=
  (List.range s.q.occ).map fun k =>
    ((s.q.header (frameSlot s k)).group, (List.range (s.q.header (frameSlot s k)).len).map (slotPair s (frameSlot s k)))

/-! A stage as a shift register: the reference reading of R141 and R143. -/

/-- `d(1) .. d(2*H)` before a pair is received: the pairs received so far, newest first. -/
def window (taps : Nat) (f : FilterState) : List Pair :=
  (List.range (2 * taps)).map fun j => tap (2 * taps) f (j + 1)

/-- The weighted sum of R143 over the pairs received, newest first: `COEF[k]` times `d(H-1-k) + d(H+k)`, for the
coefficients from `k` on. -/
def weightedSum (member : Pair → Word) (taps : Nat) (d : List Pair) : Nat → List Int → Int
  | _, [] => 0
  | k, c :: cs =>
    c * ((member (d.getD (taps - 1 - k) Pair.zero)).toInt + (member (d.getD (taps + k) Pair.zero)).toInt)
      + weightedSum member taps d (k + 1) cs

/-- The interpolated sample of R143 from the pairs received, newest first. -/
def shiftInterpolate (bound : Nat) (sc : StageConfig) (member : Pair → Word) (d : List Pair) : Word :=
  word (clamp (asr (weightedSum member sc.taps d 0 (sc.coef.take sc.taps)) sc.shift)
    (-bound) bound)

/-- R143 over a shift register `d` of `2 * H` pairs, newest first: the register afterwards and the output block. -/
def shiftBlock (bound : Nat) (sc : StageConfig) : List Pair → Block → List Pair × Block
  | d, [] => (d, [])
  | d, x :: xs =>
    let d' := (x :: d).take (2 * sc.taps)
    let rest := shiftBlock bound sc d' xs
    (rest.1, d'.getD sc.taps Pair.zero
      :: ⟨shiftInterpolate bound sc Pair.l d', shiftInterpolate bound sc Pair.r d'⟩ :: rest.2)

/-! The noise shaper as sequences (R189). -/

/-- The quantizer inputs `v[t]` and quantized outputs `y[t]` of a run of sub-steps, in time order (R183, R189). -/
def shaperTrace (cfg : Config) : List Int → List Int → List (Int × Int)
  | _, [] => []
  | integ, u :: us =>
    let v := quantizerInput integ u
    (v, dequantize cfg (quantize cfg v)) ::
      (match subStep cfg integ u with
       | some (integ', _) => shaperTrace cfg integ' us
       | none => [])

/-- The backward difference of a sequence that is 0 before its start, given the term before (R189). -/
def differences : Int → List Int → List Int
  | _, [] => []
  | before, e :: es => (e - before) :: differences e es

/-- The `m`-th backward difference. -/
def differencesN : Nat → List Int → List Int
  | 0, es => es
  | m + 1, es => differencesN m (differences 0 es)

/-- `MID`: every code is the mid-scale code (R188). -/
def midWord (cfg : Config) : Word :=
  BitVec.ofNat 32 (packCodes cfg.dsW (List.replicate cfg.dsN ((2 ^ (cfg.dsW - 1) : Nat) : Int)))

end Sys2Proof.Machine
end

