-- ==== Sys2Proof/Certificates/Slice0/Obligations.lean ====
section
/-! DEFINITION. The statements for the provers. A docstring names the rule or section of spec/ a statement formalises; where a clause rests on the model's own choice it names the log entry. -/

section

open Sys2Proof Sys2Proof.Machine

/-! Encoding. -/

/-- 30_encoding.md sections 2, 3 and 6: every well-formed operation is read back from its own words, whatever follows
them. -/
def Obligations.DecodeEncodeAgree : Prop :=
  ∀ (i : Instr) (rest : List Word), i.WellFormed → decode (encode i ++ rest) = .ok (i, rest)

/-- 30_encoding.md sections 1 to 3 and 6: a stream from which an operation is read begins with exactly the words of that
operation, and the operation is well formed; no bit of the words read is without meaning. -/
def Obligations.DecodedCommandIsItsEncoding : Prop :=
  ∀ (ws rest : List Word) (i : Instr), decode ws = .ok (i, rest) → i.WellFormed ∧ ws = encode i ++ rest

/-- 30_encoding.md sections 2 and 3: reading a command word by its fields and formats selects a row exactly when the
row's mask and match do, `OSR` before `OSS`; a word that no row matches is an unassigned opcode or has a used opcode and
a non-zero unused field. -/
def Obligations.RowsAreTheOpcodeMap : Prop :=
  ∀ w : Word,
    (∀ row, rowOf (Fields.ofWord w) = .ok row ↔
      w &&& row.mask = row.pattern ∧ (row = .oss → w &&& Row.osr.mask ≠ Row.osr.pattern)) ∧
    (rowOf (Fields.ofWord w) = .error .unassignedOpcode ↔ ∀ row : Row, row.op ≠ w.extractLsb' 24 8) ∧
    (rowOf (Fields.ofWord w) = .error .unusedFieldNotZero ↔
      (∃ row : Row, row.op = w.extractLsb' 24 8) ∧ ∀ row : Row, w &&& row.mask ≠ row.pattern)

/-- 30_encoding.md section 7 and 95_test_vectors.md: command words written out by hand decode to the operations they stand
for, one of each family. -/
def Obligations.WrittenWordsDecode : Prop :=
  decode [0x11000000, 0x0000BB80, 0x00000010] = .ok (.fvd 48000 16, []) ∧
  decode [0x20100002, 1, 2, 3, 4] = .ok (.oss 1 [⟨1, 2⟩, ⟨3, 4⟩], []) ∧
  decode [0x20100000, 7] = .ok (.osr 1, [7]) ∧
  decode [0x21200001, 0x00010000, 0xFFFF0000] = .ok (.osa 2 [⟨0x00010000, 0xFFFF0000⟩], []) ∧
  decode [0x30100001, 5, 6] = .ok (.qen .f48 [⟨5, 6⟩], []) ∧
  decode [0x40000000, 0x00400000, 0xFFC00000] = .ok (.dse 0x00400000 0xFFC00000, []) ∧
  decode [0x51000000, 0x05DC0000] = .ok (.fbu 98304000, []) ∧
  decode [0x60000001, 0x05DC0000, 0x00000100, 0x0000FF00] = .ok (.pcy 98304000 [⟨0x00000100, 0x0000FF00⟩], []) ∧
  decode [0x71000005] = .ok (.rds 5, [])

/-- 30_encoding.md section 6 and 60_exceptions.md section 3, check (1): a command word that no row matches is consumed
alone and answered with the status word `ILLEGAL` alone; no other state changes. -/
def Obligations.UnmatchedWordIsConsumedAlone : Prop :=
  ∀ (s : State) (turn : Turn) (sched : List Turn) (w : Word) (rest : List Word) (e : DecodeError),
    s.sched = turn :: sched → (s.port turn.port).flight = none → (s.port turn.port).input = w :: rest →
    rowOf (Fields.ofWord w) = .error e →
    step s = .next (({ s with sched := sched, issuer := turn.port } : State).setPort turn.port
      { input := rest, output := (s.port turn.port).output ++ [6], flight := none })

/-! The step. -/

/-- When the words delivered on the port whose turn it is decode to an operation and that port has none in flight, the
step runs that operation on the state with those words consumed: its first step in a single turn (20_memory.md section 6),
the whole of it, with no step of another agent inside, in a whole turn. Turns and their grain are the model's choice
(log 6), not the spec's. -/
def Obligations.StepRunsDecodedInstruction : Prop :=
  ∀ (s : State) (turn : Turn) (sched : List Turn) (i : Instr) (tail : List Word),
    s.sched = turn :: sched → (s.port turn.port).flight = none →
    decode (s.port turn.port).input = .ok (i, tail) → i.WellFormed →
    let now := ({ s with sched := sched, issuer := turn.port } : State).setPort turn.port
      { s.port turn.port with input := tail }
    (turn.grain = .whole → step s = exec i now) ∧ (turn.grain = .single → step s = begin i now)

/-- 20_memory.md section 6: an operation in flight takes its next step at its port's turn; a port on which no whole
command has arrived waits; with nothing scheduled nothing happens (log 6: the schedule is the model's). -/
def Obligations.StepContinuesOrWaits : Prop :=
  ∀ s : State,
    (s.sched = [] → step s = .next s) ∧
    ∀ (turn : Turn) (sched : List Turn), s.sched = turn :: sched →
      (∀ f, (s.port turn.port).flight = some f → step s = advance f { s with sched := sched, issuer := turn.port }) ∧
      ((s.port turn.port).flight = none →
        decode (s.port turn.port).input = .error .noCommand ∨ decode (s.port turn.port).input = .error .incomplete →
        step s = .next { s with sched := sched, issuer := turn.port })

/-- 20_memory.md section 6 (the steps of each operation; no agent waits for another): an operation other than `QEN`,
`QDE`, `FBU`, `PCY` and `CCY` is one step, and the steps of any operation, with no step of another agent between them,
are finitely many and together do what the operation does. -/
def Obligations.WholeOperationIsItsSteps : Prop :=
  (∀ (i : Instr) (s : State), i.row ∉ [Row.qen, .qde, .fbu, .pcy, .ccy] → begin i s = exec i s) ∧
  ∀ (i : Instr) (s : State), (s.port s.issuer).flight = none →
    ∃ n, ∀ m, n ≤ m → andThen (begin i s) (finishFlight m) = exec i s

/-! Reset. -/

/-- R290: what every register and every status register holds right after hardware reset, for every configuration; and a
block to which no command has been delivered waits, whatever the schedule. Slot data are unspecified and nothing is said
of them. -/
def Obligations.ResetRegisters : Prop :=
  (∀ cfg : Config,
    let s := State.resetWith cfg
    s.life = .uninit ∧
    s.fmt = { rate := none, depth := none, valid := false } ∧
    s.fv = { prevRate := none, prevDepth := none, updated := false } ∧
    (∀ st, (s.os.get st).dl = List.replicate (2 * (cfg.stage.get st).taps) ⟨0, 0⟩ ∧ (s.os.get st).cur = 0) ∧
    s.ds.left.integ = List.replicate cfg.dsM 0 ∧ s.ds.left.prev = 0 ∧
    s.ds.right.integ = List.replicate cfg.dsM 0 ∧ s.ds.right.prev = 0 ∧
    s.q.hdr = List.replicate cfg.nSlots { len := 0, group := .f441 } ∧
    s.q.wc = 0 ∧ s.q.rc = 0 ∧ s.q.occ = 0 ∧ s.q.total = 0 ∧ s.q.lock = .free ∧
    s.mute = .muted ∧ s.family = .f441 ∧ s.dsResetReq = false ∧
    s.fb.value = 0 ∧ s.fb.nominal = 0 ∧ s.fb.min = 0 ∧ s.fb.max = 0 ∧ s.fb.target = 0 ∧ s.fb.lastTicks = 0 ∧
    s.fb.haveLast = false ∧ s.fb.configured = false ∧
    s.cfg = cfg ∧
    (∀ n, n ∈ [0, 1, 2, 3, 5, 6, 7, 8, 9, 10, 11] → statusRegister s n = some 0) ∧
    statusRegister s 4 = some 1 ∧ statusRegister s 12 = some (cfg0Word cfg) ∧
    statusRegister s 13 = some (cfg1Word cfg)) ∧
  ∀ (s : State) (turn : Turn) (sched : List Turn), s.sched = turn :: sched →
    (∀ x, (s.port x).input = [] ∧ (s.port x).flight = none) →
    step s = .next { s with sched := sched, issuer := turn.port }

/-- The invariants of the model hold right after reset, for every configuration (10_state.md R23, R25, R31, R33, R37, R44),
and the device has the literals that 00_scope.md section 4 (R6) and 93_implementation_defined.md section 2 fix. That the slot memory is canonical and that each
slot cell holds its own free value are the model's choice (log 3). -/
def Obligations.InvariantsHoldAtReset : Prop :=
  (∀ cfg : Config,
    LifecycleInv (State.resetWith cfg) ∧ FormatInv (State.resetWith cfg) ∧ FeedbackInv (State.resetWith cfg) ∧
    ShapeInv (State.resetWith cfg) ∧ RingInv (State.resetWith cfg) ∧
    ∀ a, (State.resetWith cfg).q.data.value a = Config.freeSlot a) ∧
  State.reset.cfg.backpressureLevel = State.reset.cfg.nSlots - 1 ∧ State.reset.cfg.backpressurePairs = 1 ∧
  State.reset.cfg.fvTolPpm = 250 ∧ 2 * State.reset.cfg.clampBound = 3 * 2 ^ 23 ∧ State.reset.cfg.fbErrLimit = 5 ∧
  State.reset.cfg.fbBandPpm = 125 ∧ State.reset.cfg.fbGlitchPpm = 1000

/-! The checks before an operation. -/

/-- 60_exceptions.md sections 3 and 7, 30_encoding.md section 6: the ports of each operation; on any other port, in every
value of `sys.life`, the operation is refused with `ILLEGAL`, its result words are present and 0, and nothing else
changes. That they are 0 for `FVO`, `FVD` and `FBU` too is the model's reading of R104 against R103 (log 7). -/
def Obligations.WrongPortIsRefused : Prop :=
  (∀ row, Port.p ∈ ports row ↔ row ∉ [Row.qde, .dse, .dsz, .ccy]) ∧
  (∀ row, Port.c ∈ ports row ↔ row ∈ [Row.qde, .qoc, .qts, .dse, .dsz, .ccy, .rds]) ∧
  (∀ row, Port.t ∈ ports row ↔ row ∈ [Row.fbr, .rds]) ∧
  ∀ (i : Instr) (s : State), s.issuer ∉ ports i.row →
    ∃ t, exec i s = .next t ∧
      Ends [] (statusWord .illegal 0 :: List.replicate (resultWords i.row) 0) [] 0 s t

/-- R259: every operation other than `INIT` and `RDS` is refused with `NOT_READY` while `sys.life` is `UNINIT` or
`FAILED`. -/
def Obligations.NotReadyIsRefused : Prop :=
  ∀ (i : Instr) (s : State), s.issuer ∈ ports i.row → i.row ≠ .init → i.row ≠ .rds →
    s.life = .uninit ∨ s.life = .failed →
    ∃ t results, exec i s = .next t ∧ results.length = resultWords i.row ∧
      Ends [] (statusWord .notReady 0 :: results) [] 0 s t

/-- 30_encoding.md sections 1 and 5: an operation that completes returns exactly one response: a status word, its row's
result words and `2 * out_len` words of output block. -/
def Obligations.EveryOperationAnswersOnce : Prop :=
  ∀ (i : Instr) (s t : State), exec i s = .next t →
    ∃ st outLen words, (t.port s.issuer).output = (s.port s.issuer).output ++ statusWord st outLen :: words ∧
      words.length = resultWords i.row + 2 * outLen

/-! The format validator. -/

/-- R121: the candidate rate is none for a word-clock width of 0, else the lowest rate within `FV_TOL_PPM`, else none.
The last clause, that below a tolerance of 42000 parts per million at most one rate is within it, is the inference that
R121 marks as derived. -/
def Obligations.CandidateRate : Prop :=
  let within (cfg : Config) (tol : Nat) (ww : Word) (r : Rate) : Prop :=
    ((cfg.fRef : Int) * cfg.fvWordPeriods - r.hz * ww.toNat).natAbs * 1000000 ≤ tol * r.hz * ww.toNat
  (∀ cfg, candRate cfg 0 = none) ∧
  (∀ (cfg : Config) (ww : Word), ww ≠ 0 → ∀ r,
    candRate cfg ww = some r ↔
      within cfg cfg.fvTolPpm ww r ∧ ∀ r' : Rate, r'.code < r.code → ¬ within cfg cfg.fvTolPpm ww r') ∧
  (∀ (cfg : Config) (tol : Nat) (ww : Word) (r r' : Rate), tol < 42000 → ww ≠ 0 →
    within cfg tol ww r → within cfg tol ww r' → r = r')

/-- R122, for a configuration that `INIT` accepts: a depth is the candidate exactly when both widths are non-zero and its
ratio is the number of bit-clock periods in one word-clock period rounded to the nearest integer, halves upward. -/
def Obligations.CandidateDepth : Prop :=
  ∀ (cfg : Config) (ww bw : Word) (d : Depth), configOk cfg = true →
    (candDepth cfg ww bw = some d ↔
      ww ≠ 0 ∧ bw ≠ 0 ∧
      let num := ww.toNat * cfg.fvBitPeriods
      let den := bw.toNat * cfg.fvWordPeriods
      2 * den * cfg.ratio.get d ≤ 2 * num + den ∧ 2 * num + den < 2 * den * (cfg.ratio.get d + 1))

/-- R123: the words of `FVO`, its one port, and what it writes and answers. -/
def Obligations.FvoObserves : Prop :=
  (∀ ww bw, encode (.fvo ww bw) = [0x10000000, ww, bw]) ∧
  (∀ s ww bw, s.issuer ≠ .p →
    ∃ t result, exec (.fvo ww bw) s = .next t ∧ Ends [] [statusWord .illegal 0, result] [] 0 s t) ∧
  ∀ (s : State) (ww bw : Word), Ready .p s →
    let cr := candRate s.cfg ww
    let cd := candDepth s.cfg ww bw
    let ok := cr ≠ none ∧ cd ≠ none ∧ cr = s.fv.prevRate ∧ cd = s.fv.prevDepth
    ∃ t, exec (.fvo ww bw) s = .next t ∧
      t.fv.prevRate = cr ∧ t.fv.prevDepth = cd ∧
      (ok → Ends [.fvPrev, .fmt, .fvUpdated] [statusWord .ok 0, fmtWord t] [] 0 s t ∧
        (s.fmt.valid = false → t.fmt = { rate := cr, depth := cd, valid := true } ∧ t.fv.updated = true) ∧
        (s.fmt.valid = true → t.fmt = s.fmt ∧ t.fv.updated = s.fv.updated)) ∧
      (¬ ok → Ends [.fvPrev, .fmt] [statusWord .formatErr 0, fmtWord t] [] 0 s t ∧
        t.fmt = { rate := s.fmt.rate, depth := s.fmt.depth, valid := false })

/-- R124: the words of `FVD`, its one port, and what it writes and answers for a pair in the whitelist and for any
other. -/
def Obligations.FvdDeclares : Prop :=
  (∀ rateHz depthBits, encode (.fvd rateHz depthBits) = [0x11000000, rateHz, depthBits]) ∧
  (∀ s rateHz depthBits, s.issuer ≠ .p →
    ∃ t result, exec (.fvd rateHz depthBits) s = .next t ∧ Ends [] [statusWord .illegal 0, result] [] 0 s t) ∧
  ∀ (s : State) (rateHz depthBits : Word), Ready .p s →
    ∃ t, exec (.fvd rateHz depthBits) s = .next t ∧
      (∀ (r : Rate) (d : Depth), rateHz.toNat = r.hz → depthBits.toNat = d.bits →
        Ends [.fvPrev, .fmt, .fvUpdated] [statusWord .ok 0, fmtWord t] [] 0 s t ∧
        t.fmt = { rate := some r, depth := some d, valid := true } ∧
        t.fv.prevRate = some r ∧ t.fv.prevDepth = some d ∧
        (t.fv.updated = true ↔
          s.fv.updated = true ∨ s.fmt.valid = false ∨ s.fmt.rate ≠ some r ∨ s.fmt.depth ≠ some d)) ∧
      ((∀ (r : Rate) (d : Depth), ¬ (rateHz.toNat = r.hz ∧ depthBits.toNat = d.bits)) →
        Ends [.fvPrev, .fmt] [statusWord .formatErr 0, fmtWord t] [] 0 s t ∧
        t.fmt = { rate := s.fmt.rate, depth := s.fmt.depth, valid := false } ∧
        t.fv.prevRate = none ∧ t.fv.prevDepth = none)

/-- R125: `FVT` is the word 0x12000000, accepted on the `P` port alone, one step; it returns `fv.updated` and clears it,
and never fails; a second take returns 0 and changes nothing, and two raises before one take are seen as one. -/
def Obligations.FvtTakesTheSignal : Prop :=
  encode .fvt = [0x12000000] ∧
  (∀ s, begin .fvt s = exec .fvt s) ∧
  (∀ s, s.issuer ≠ .p → ∃ t, exec .fvt s = .next t ∧ Ends [] [statusWord .illegal 0, 0] [] 0 s t) ∧
  ∀ s, Ready .p s →
    ∃ t u, exec .fvt s = .next t ∧ t.fv.updated = false ∧
      Ends [.fvUpdated] [statusWord .ok 0, if s.fv.updated then 1 else 0] [] 0 s t ∧
      exec .fvt t = .next u ∧ Ends [] [statusWord .ok 0, 0] [] 0 t u ∧
      ∃ v f1 f2, execAll [.fvd 48000 16, .fvd 44100 16, .fvt, .fvt] s = .next v ∧
        v.portP.output = s.portP.output ++
          [statusWord .ok 0, f1, statusWord .ok 0, f2, statusWord .ok 0, 1, statusWord .ok 0, 0]

/-- 10_state.md section 3 (the invariant of AudioFormat): no step breaks it. -/
def Obligations.FormatInvKept : Prop :=
  ∀ s t : State, FormatInv s → step s = .next t → FormatInv t

/-- 40_format_validator.md section 6 (the testable properties): after two identical good observations a take returns the
signal once, and it is not raised again by a third; two observations with different candidates raise nothing and leave
the format invalid. -/
def Obligations.SignalIsRaisedOnce : Prop :=
  (∀ (s : State) (ww bw : Word), Ready .p s → s.fmt.valid = false →
    candRate s.cfg ww ≠ none → candDepth s.cfg ww bw ≠ none →
    ∃ t f1 f2 f3 st, execAll [.fvo ww bw, .fvo ww bw, .fvt, .fvo ww bw, .fvt] s = .next t ∧
      t.fmt = { rate := candRate s.cfg ww, depth := candDepth s.cfg ww bw, valid := true } ∧
      t.portP.output = s.portP.output ++
        [statusWord st 0, f1, statusWord .ok 0, f2, statusWord .ok 0, 1, statusWord .ok 0, f3, statusWord .ok 0, 0]) ∧
  (∀ (s : State) (ww bw ww' bw' : Word), Ready .p s →
    candRate s.cfg ww ≠ candRate s.cfg ww' ∨ candDepth s.cfg ww bw ≠ candDepth s.cfg ww' bw' →
    ∃ t f1 f2 b st, execAll [.fvo ww bw, .fvt, .fvo ww' bw', .fvt] s = .next t ∧
      t.fmt.valid = false ∧
      t.portP.output = s.portP.output ++
        [statusWord st 0, f1, statusWord .ok 0, b, statusWord .formatErr 0, f2, statusWord .ok 0, 0])

/-! The cascade. -/

/-- R142: the word of `OSR`, its one port and its one step; it puts one stage into its reset state, all of it at once, and
touches no other; a stage index above 2 is refused. -/
def Obligations.OsrClearsOneStage : Prop :=
  (∀ a : BitVec 4, encode (.osr a) = [0x20000000 ||| (a.setWidth 32 <<< 20)]) ∧
  (∀ s a, begin (.osr a) s = exec (.osr a) s) ∧
  (∀ s a, s.issuer ≠ .p → ∃ t, exec (.osr a) s = .next t ∧ Ends [] [statusWord .illegal 0] [] 0 s t) ∧
  (∀ (s : State) (a : BitVec 4) (st : Stage), Ready .p s → Stage.ofIndex a = some st →
    ∃ t, exec (.osr a) s = .next t ∧
      t.os.get st = { dl := List.replicate (2 * (s.cfg.stage.get st).taps) ⟨0, 0⟩, cur := 0 } ∧
      Ends [.stage st] [statusWord .ok 0] [] 0 s t) ∧
  (∀ (s : State) (a : BitVec 4), Ready .p s → 3 ≤ a.toNat →
    ∃ t, exec (.osr a) s = .next t ∧ Ends [] [statusWord .illegal 0] [] 0 s t)

/-- R145: `OSZ` is the word 0x22000000, accepted on the `P` port alone, one step; it leaves every stage as `OSR` of it
does. -/
def Obligations.OszClearsTheCascade : Prop :=
  encode .osz = [0x22000000] ∧
  (∀ s, begin .osz s = exec .osz s) ∧
  (∀ s, s.issuer ≠ .p → ∃ t, exec .osz s = .next t ∧ Ends [] [statusWord .illegal 0] [] 0 s t) ∧
  ∀ s, Ready .p s →
    ∃ t u, exec .osz s = .next t ∧
      (∀ st, t.os.get st = { dl := List.replicate (2 * (s.cfg.stage.get st).taps) ⟨0, 0⟩, cur := 0 }) ∧
      Ends [.stage .s0, .stage .s1, .stage .s2] [statusWord .ok 0] [] 0 s t ∧
      execAll [.osr 0, .osr 1, .osr 2] s = .next u ∧ u.os = t.os

/-- 41_oversampling_cascade.md section 3: `OSS` runs its stage's step loop over the block and touches nothing else; the
stage index is checked first, then the width. -/
def Obligations.OssRunsOneStage : Prop :=
  (∀ (s : State) (a : BitVec 4) (st : Stage) (b : Block), Ready .p s → Stage.ofIndex a = some st → b ≠ [] →
    2 * b.length ≤ s.cfg.frameMax →
    let r := stageBlock s.cfg.clampBound (s.cfg.stage.get st) (s.os.get st) b
    ∃ t, exec (.oss a b) s = .next t ∧ t.os.get st = r.1 ∧ r.2.length = 2 * b.length ∧
      Ends [.stage st] (statusWord .ok (2 * b.length) :: r.2.words) [] 0 s t) ∧
  (∀ (s : State) (a : BitVec 4) (b : Block), Ready .p s → 3 ≤ a.toNat →
    ∃ t, exec (.oss a b) s = .next t ∧ Ends [] [statusWord .illegal 0] [] 0 s t) ∧
  (∀ (s : State) (a : BitVec 4) (b : Block), Ready .p s → a.toNat < 3 → s.cfg.frameMax < 2 * b.length →
    ∃ t, exec (.oss a b) s = .next t ∧ Ends [] [statusWord .widthErr 0] [] 0 s t)

/-- 41_oversampling_cascade.md sections 1 and 3: the delay line with its cursor is a shift register of the last `2 * H`
pairs, and the step loop over it gives the same output as the loop over that register. -/
def Obligations.StageIsAShiftRegister : Prop :=
  ∀ (bound : Nat) (sc : StageConfig) (f : FilterState) (b : Block), 0 < sc.taps → StageShape (2 * sc.taps) f →
    window sc.taps (stageBlock bound sc f b).1 = (shiftBlock bound sc (window sc.taps f) b).1 ∧
    (stageBlock bound sc f b).2 = (shiftBlock bound sc (window sc.taps f) b).2

/-- 41_oversampling_cascade.md sections 3, 6 and 7: output pair `2n` of a stage is the pair received `H` inputs before
input `n`, unchanged; both members of output pair `2n + 1` lie within ±`CLAMP`, for every `CLAMP` that a sample word
holds (the device's is 12582912). -/
def Obligations.StageDelaysAndClamps : Prop :=
  ∀ (bound : Nat) (sc : StageConfig) (f : FilterState) (b : Block) (n : Nat), bound < 2 ^ 31 → 0 < sc.taps →
    StageShape (2 * sc.taps) f → n < b.length →
    (stageBlock bound sc f b).2[2 * n]? =
      (if sc.taps ≤ n then b[n - sc.taps]? else (window sc.taps f)[sc.taps - 1 - n]?) ∧
    ∃ x, (stageBlock bound sc f b).2[2 * n + 1]? = some x ∧
      -(bound : Int) ≤ x.l.toInt ∧ x.l.toInt ≤ bound ∧ -(bound : Int) ≤ x.r.toInt ∧ x.r.toInt ≤ bound

/-- 41_oversampling_cascade.md section 4: `OSA` runs the stages its rate uses, in order, and answers `2^stages * len`
pairs; rate codes 0 and 9 to 15 are refused first, then a block too wide; a rate with no stage returns the block. -/
def Obligations.OsaRunsTheActiveStages : Prop :=
  (∀ (s : State) (rc : BitVec 4) (r : Rate) (b : Block), Ready .p s → rc = r.code →
    b.length * 2 ^ r.stages ≤ s.cfg.frameMax →
    let y := cascadeBlock s.cfg s.os (Stage.firstStages r.stages) b
    ∃ t, exec (.osa rc b) s = .next t ∧ t.os = y.1 ∧ y.2.length = b.length * 2 ^ r.stages ∧
      (r.stages = 0 ∨ b = [] → y = (s.os, b)) ∧
      Ends ((Stage.firstStages r.stages).map .stage) (statusWord .ok (b.length * 2 ^ r.stages) :: y.2.words) [] 0 s t) ∧
  (∀ (s : State) (rc : BitVec 4) (b : Block), Ready .p s → rc = 0 ∨ 8 < rc.toNat →
    ∃ t, exec (.osa rc b) s = .next t ∧ Ends [] [statusWord .formatErr 0] [] 0 s t) ∧
  (∀ (s : State) (rc : BitVec 4) (r : Rate) (b : Block), Ready .p s → rc = r.code →
    s.cfg.frameMax < b.length * 2 ^ r.stages →
    ∃ t, exec (.osa rc b) s = .next t ∧ Ends [] [statusWord .widthErr 0] [] 0 s t)

/-- 41_oversampling_cascade.md section 4 (corner cases): a block through `OSA` gives the same output and leaves the same
stages as its two parts through two `OSA`, and as its way through `OSS` of each stage that its rate uses, stage 0 first:
`OSS 0`, `OSS 1`, `OSS 2` with three stages, `OSS 0`, `OSS 1` with two, `OSS 0` with one. -/
def Obligations.OsaDoesNotDependOnTheCut : Prop :=
  (∀ (s : State) (r : Rate) (x y : Block), Ready .p s → (x ++ y).length * 2 ^ r.stages ≤ s.cfg.frameMax →
    ∃ (t u v : State) (X Y : Block), exec (.osa r.code (x ++ y)) s = .next t ∧
      exec (.osa r.code x) s = .next u ∧ exec (.osa r.code y) u = .next v ∧ v.os = t.os ∧
      u.portP.output = s.portP.output ++ statusWord .ok X.length :: X.words ∧
      v.portP.output = u.portP.output ++ statusWord .ok Y.length :: Y.words ∧
      t.portP.output = s.portP.output ++ statusWord .ok (X ++ Y).length :: Block.words (X ++ Y)) ∧
  (∀ (s : State) (r : Rate) (b : Block), Ready .p s → r.stages = 3 → b ≠ [] → b.length * 8 ≤ s.cfg.frameMax →
    ∃ (t u : State) (X Y Z : Block) (words : List Word),
      exec (.osa r.code b) s = .next t ∧ execAll [.oss 0 b, .oss 1 X, .oss 2 Y] s = .next u ∧
      u.os = t.os ∧ t.portP.output = s.portP.output ++ statusWord .ok Z.length :: Z.words ∧
      u.portP.output = s.portP.output ++ words ++ statusWord .ok Z.length :: Z.words ∧
      words = statusWord .ok X.length :: X.words ++ statusWord .ok Y.length :: Y.words) ∧
  (∀ (s : State) (r : Rate) (b : Block), Ready .p s → r.stages = 2 → b ≠ [] → b.length * 4 ≤ s.cfg.frameMax →
    ∃ (t u : State) (X Y : Block),
      exec (.osa r.code b) s = .next t ∧ execAll [.oss 0 b, .oss 1 X] s = .next u ∧
      u.os = t.os ∧ t.portP.output = s.portP.output ++ statusWord .ok Y.length :: Y.words ∧
      u.portP.output = s.portP.output ++ (statusWord .ok X.length :: X.words) ++ statusWord .ok Y.length :: Y.words) ∧
  (∀ (s : State) (r : Rate) (b : Block), Ready .p s → r.stages = 1 → b ≠ [] → b.length * 2 ≤ s.cfg.frameMax →
    ∃ (t u : State) (X : Block),
      exec (.osa r.code b) s = .next t ∧ exec (.oss 0 b) s = .next u ∧
      u.os = t.os ∧ t.portP.output = s.portP.output ++ statusWord .ok X.length :: X.words ∧
      u.portP.output = s.portP.output ++ statusWord .ok X.length :: X.words)

/-- 41_oversampling_cascade.md section 7, the source's testable property, which the spec marks as derived: `OSA` produces
exactly `2^stages * len` pairs, and after an `OSR` of every stage the rate uses the same input gives the same output as
from a cascade that has its reset value, and leaves those stages the same. -/
def Obligations.ResetReproducesAFreshStart : Prop :=
  (∀ (cfg : Config) (os : PerStage FilterState) (r : Rate) (b : Block),
    (cascadeBlock cfg os (Stage.firstStages r.stages) b).2.length = 2 ^ r.stages * b.length) ∧
  (∀ (s : State) (a : BitVec 4) (st : Stage), Ready .p s → Stage.ofIndex a = some st →
    ∃ t, exec (.osr a) s = .next t ∧ t.os.get st = (State.resetWith s.cfg).os.get st) ∧
  ∀ (s fresh : State) (r : Rate) (b : Block), Ready .p s → Ready .p fresh → fresh.cfg = s.cfg →
    fresh.os = (State.resetWith s.cfg).os → b.length * 2 ^ r.stages ≤ s.cfg.frameMax →
    ∃ (t u : State) (Y : Block),
      execAll (([.osr 0, .osr 1, .osr 2] : List Instr).take r.stages ++ [.osa r.code b]) s = .next t ∧
      exec (.osa r.code b) fresh = .next u ∧
      (∀ st, st ∈ Stage.firstStages r.stages → t.os.get st = u.os.get st) ∧
      t.portP.output = s.portP.output ++ List.replicate r.stages (statusWord .ok 0)
        ++ statusWord .ok (2 ^ r.stages * b.length) :: Block.words Y ∧
      u.portP.output = fresh.portP.output ++ statusWord .ok (2 ^ r.stages * b.length) :: Block.words Y

/-- 10_state.md sections 4 and 5: no step changes the length of a delay line or the number of integrators, takes a cursor
out of its line or an integrator out of its register, whatever the free values of log 1 are. -/
def Obligations.ShapeInvKept : Prop :=
  ∀ s t : State, ShapeInv s → step s = .next t → ShapeInv t

/-! The queue. -/

/-- 42_queue.md section 2 and 20_memory.md section 2: where there is room, `QEN` writes the block into the cells of the
slot at the write cursor and no others, its header, and commits. -/
def Obligations.QenStoresTheBlock : Prop :=
  ∀ (s : State) (g : Family) (b : Block), Ready .p s → RingHolds s → b ≠ [] → b.length ≤ s.cfg.frameMax →
    s.q.occ < s.cfg.nSlots →
    ∃ t, exec (.qen g b) s = .next t ∧
      t.q.header s.q.wc = { len := b.length, group := g } ∧
      (∀ i, i ≠ s.q.wc → t.q.header i = s.q.header i) ∧
      (∀ j, j < b.length → t.q.data.read (s.q.wc * s.cfg.frameMax + j) = b[j]?) ∧
      (∀ a, (∀ j, j < b.length → a ≠ s.q.wc * s.cfg.frameMax + j) → t.q.data.read a = s.q.data.read a) ∧
      t.q.lock = s.q.lock ∧
      t.q.wc = (s.q.wc + 1) % s.cfg.nSlots ∧ t.q.occ = s.q.occ + 1 ∧ t.q.total = s.q.total + b.length ∧
      Ends [.slots, .writeCursor, .occupancy, .total] [statusWord .ok 0] [] 0 s t

/-- 42_queue.md section 2 and 60_exceptions.md section 3: an empty or oversize block is refused with `WIDTH_ERR` whatever
the occupancy, any other block at a full queue with `Q_FULL`; nothing is written, not even the slot. -/
def Obligations.QenRefusals : Prop :=
  ∀ (s : State) (g : Family) (b : Block), Ready .p s →
    (b = [] ∨ s.cfg.frameMax < b.length →
      ∃ t, exec (.qen g b) s = .next t ∧ Ends [] [statusWord .widthErr 0] [] 0 s t) ∧
    (b ≠ [] → b.length ≤ s.cfg.frameMax → s.cfg.nSlots ≤ s.q.occ →
      ∃ t, exec (.qen g b) s = .next t ∧ Ends [] [statusWord .qFull 0] [] 0 s t)

/-- 42_queue.md section 3: `QDE` returns the group and the pairs of the slot at the read cursor, releases the slot and
sets the family line; the slots stay. An empty queue is refused with `Q_EMPTY`. -/
def Obligations.QdeReturnsTheOldestFrame : Prop :=
  (∀ s : State, Ready .c s → RingHolds s → 0 < s.q.occ →
    ∃ t b, exec .qde s = .next t ∧
      b.length = (s.q.header s.q.rc).len ∧
      (∀ j, j < b.length → s.q.data.read (s.q.rc * s.cfg.frameMax + j) = b[j]?) ∧
      t.q.rc = (s.q.rc + 1) % s.cfg.nSlots ∧ t.q.occ = s.q.occ - 1 ∧ t.q.total = s.q.total - b.length ∧
      t.family = (s.q.header s.q.rc).group ∧
      Ends [.readCursor, .occupancy, .total, .family]
        (statusWord .ok b.length :: (if (s.q.header s.q.rc).group = .f48 then 1 else 0) :: Block.words b) [] 0 s t) ∧
  (∀ s : State, Ready .c s → s.q.occ = 0 →
    ∃ t, exec .qde s = .next t ∧ Ends [] [statusWord .qEmpty 0, 0] [] 0 s t)

/-- 42_queue.md sections 1 and 8, 20_memory.md section 6: as a list of frames the queue is first in, first out: an enqueue
appends its frame, a dequeue takes the first and answers with it; and every step of every interleaving leaves the list,
appends one frame (a producer's), drops the first (a consumer's) or is a `QRS`. The commit of an enqueue appends the block
it has written, that of a dequeue drops the frame it has read; the payload steps of an enqueue leave the list. -/
def Obligations.QueueIsFifo : Prop :=
  (∀ (s : State) (g : Family) (b : Block), Ready .p s → RingHolds s → b ≠ [] → b.length ≤ s.cfg.frameMax →
    s.q.occ < s.cfg.nSlots →
    ∃ t, exec (.qen g b) s = .next t ∧ frames t = frames s ++ [(g, b.map some)]) ∧
  (∀ (s : State) (g : Family) (first : List (Option Pair)) (others : List (Family × List (Option Pair))),
    Ready .c s → RingHolds s → frames s = (g, first) :: others →
    ∃ t b, exec .qde s = .next t ∧ first = b.map some ∧ frames t = others ∧ t.family = g ∧
      t.portC.output = s.portC.output ++
        statusWord .ok b.length :: (if g = .f48 then 1 else 0) :: Block.words b) ∧
  ∀ (s t : State) (turn : Turn) (sched : List Turn), RingInv s → s.sched = turn :: sched → step s = .next t →
    (turn.port = .p →
      (frames t = frames s ∨ (∃ g b, b ≠ [] ∧ frames t = frames s ++ [(g, b.map some)]) ∨
        (frames t = [] ∧ ∃ tail, decode s.portP.input = .ok (.qrs, tail))) ∧
      (∀ caller g b j, s.portP.flight = some (.enqWrite caller g b j) → frames t = frames s) ∧
      (∀ caller g b, s.portP.flight = some (.enqCommit caller g b) → frames t = frames s ++ [(g, b.map some)])) ∧
    (turn.port = .c →
      (frames t = frames s ∨ ∃ first, frames s = first :: frames t) ∧
      (∀ caller g n got, s.portC.flight = some (.deqRead caller g n got) →
        (got.length < n → frames t = frames s) ∧ (n ≤ got.length → frames s = (g, got.map some) :: frames t))) ∧
    (turn.port = .t → frames t = frames s)

/-- R163 and R164: `QOC` and `QTS`, on both ports, one step each, return the occupancy and the total and change nothing. -/
def Obligations.SnapshotsReadTheCounters : Prop :=
  encode .qoc = [0x32000000] ∧ encode .qts = [0x33000000] ∧
  (∀ s, begin .qoc s = exec .qoc s ∧ begin .qts s = exec .qts s) ∧
  (∀ s, s.issuer = .t → ∃ t u, exec .qoc s = .next t ∧ exec .qts s = .next u ∧
    Ends [] [statusWord .illegal 0, 0] [] 0 s t ∧ Ends [] [statusWord .illegal 0, 0] [] 0 s u) ∧
  (∀ s, Ready .p s ∨ Ready .c s → ∃ t u, exec .qoc s = .next t ∧ exec .qts s = .next u ∧
    Ends [] [statusWord .ok 0, BitVec.ofNat 32 s.q.occ] [] 0 s t ∧
    Ends [] [statusWord .ok 0, BitVec.ofNat 32 s.q.total] [] 0 s u) ∧
  (∀ s, RingHolds s → s.q.occ ≤ s.cfg.nSlots ∧ s.q.total = queuedPairs s s.q.occ)

/-- 42_queue.md section 5: with the consumer idle `QRS` restores the queue's reset state, slot data apart; issued while
the consumer is inside an operation it ends in the fault `qrsRace` (log 4). -/
def Obligations.QrsRestoresTheQueue : Prop :=
  (∀ s : State, Ready .p s → s.portC.flight = none →
    ∃ t, exec .qrs s = .next t ∧
      t.q.wc = 0 ∧ t.q.rc = 0 ∧ t.q.occ = 0 ∧ t.q.total = 0 ∧
      t.q.hdr = List.replicate s.q.hdr.length { len := 0, group := .f441 } ∧
      t.q.data = s.q.data ∧ t.q.lock = s.q.lock ∧
      Ends [.writeCursor, .readCursor, .occupancy, .total, .slots] [statusWord .ok 0] [] 0 s t) ∧
  (∀ s : State, Ready .p s → s.portC.flight ≠ none → exec .qrs s = .fault .qrsRace)

/-- 10_state.md section 6 and 20_memory.md section 6: the ring invariant, with what the operations in flight have
established and the canonical slot memory, is kept by every step of every interleaving. -/
def Obligations.RingInvKept : Prop :=
  ∀ s t : State, RingInv s → step s = .next t → RingInv t

/-- 20_memory.md section 6 (exclusive payload access): while an enqueue is between its check and its commit and a dequeue
between its own, the two slots differ, and so do all their cells. -/
def Obligations.PayloadSlotsDiffer : Prop :=
  ∀ (s : State) (f h : Flight), RingInv s → s.portP.flight = some f → s.portC.flight = some h →
    (∃ caller g b j, f = .enqWrite caller g b j) ∨ (∃ caller g b, f = .enqCommit caller g b) →
    (∃ caller, h = .deqHeader caller) ∨ (∃ caller g n got, h = .deqRead caller g n got) →
    s.q.wc ≠ s.q.rc ∧
    ∀ j k, j < s.cfg.frameMax → k < s.cfg.frameMax → slotCell s.cfg s.q.wc j ≠ slotCell s.cfg s.q.rc k

/-- 20_memory.md section 1 and 10_state.md section 6: from a state with the ring invariant no step leaves the slot space;
the one fault is the reset race of log 4, and nothing is refused by the model; and every cell of the frame that the next
dequeue reads has been written, so that no free value of log 3 is read. -/
def Obligations.OnlyTheResetRaceFaults : Prop :=
  ∀ s : State, RingInv s →
    (∀ e, step s = .fault e → e = .qrsRace ∧ s.portC.flight ≠ none) ∧ (∀ e, step s ≠ .refused e) ∧
    (0 < s.q.occ → ∀ j, j < (s.q.header s.q.rc).len → slotPair s s.q.rc j ≠ none)

/-! The encoder. -/

/-- 43_encoder.md sections 3 to 5 and 7: `DSE` encodes each channel alone and answers its two words; when a channel's
integrator overflows it ends with `DS_OVERFLOW` and two words, and nothing but the modulator changes. From then until the
next `DSZ` the modulator, marked by `lost`, and the words of every `DSE` are free values (log 1), and nothing is said of
them. -/
def Obligations.DseEncodesAPair : Prop :=
  ∀ (s : State) (left right : Word), Ready .c s →
    (∀ chL wL chR wR, encodeChannel s.cfg s.ds.left left = some (chL, wL) →
      encodeChannel s.cfg s.ds.right right = some (chR, wR) →
      ∃ t, exec (.dse left right) s = .next t ∧
        (s.ds.lost = false → t.ds = { left := chL, right := chR, lost := false } ∧
          Ends [.modulator] [statusWord .ok 0, wL, wR] [] 0 s t) ∧
        (s.ds.lost = true → t.ds.lost = true ∧
          ∃ w w', Ends [.modulator] [statusWord .ok 0, w, w'] [] 1 s t)) ∧
    (encodeChannel s.cfg s.ds.left left = none ∨ encodeChannel s.cfg s.ds.right right = none →
      ∃ t w w', exec (.dse left right) s = .next t ∧ t.ds.lost = true ∧
        Ends [.modulator] [statusWord .dsOverflow 0, w, w'] [] 1 s t)

/-- 43_encoder.md section 6: `DSZ` is the word 0x41000000, accepted on the `C` port alone, one step; it restores the reset
state of the modulator. -/
def Obligations.DszResetsTheModulator : Prop :=
  encode .dsz = [0x41000000] ∧
  (∀ s, begin .dsz s = exec .dsz s) ∧
  (∀ s, s.issuer ≠ .c → ∃ t, exec .dsz s = .next t ∧ Ends [] [statusWord .illegal 0] [] 0 s t) ∧
  ∀ s, Ready .c s →
    ∃ t, exec .dsz s = .next t ∧
      t.ds.left = { integ := List.replicate s.cfg.dsM 0, prev := 0 } ∧
      t.ds.right = { integ := List.replicate s.cfg.dsM 0, prev := 0 } ∧
      t.ds = (State.resetWith s.cfg).ds ∧
      Ends [.modulator] [statusWord .ok 0] [] 0 s t

/-- 43_encoder.md section 8, the spec's inference "Zero in, mid-scale out": from the reset state the pair (0, 0) gives the
mid-scale word on both channels and leaves the state unchanged. -/
def Obligations.ZeroInMidScaleOut : Prop :=
  (∀ cfg : Config, configOk cfg = true →
    (∀ j, subSample cfg 0 0 j = 0) ∧
    quantize cfg 0 = ((2 ^ (cfg.dsW - 1) : Nat) : Int) ∧ dequantize cfg ((2 ^ (cfg.dsW - 1) : Nat) : Int) = 0 ∧
    (midWord cfg).toNat = ((List.range cfg.dsN).map fun j => 2 ^ (cfg.dsW - 1) * 2 ^ (cfg.dsW * j)).sum ∧
    (cfg.dsW = 4 → cfg.dsN = 8 → midWord cfg = 0x88888888) ∧
    (cfg.dsW = 5 → cfg.dsN = 4 → midWord cfg = 0x00084210) ∧
    (cfg.dsW = 6 → cfg.dsN = 4 → midWord cfg = 0x00820820)) ∧
  ∀ s : State, Ready .c s → configOk s.cfg = true → s.ds = (State.resetWith s.cfg).ds →
    ∃ t, exec (.dse 0 0) s = .next t ∧
      Ends [] [statusWord .ok 0, midWord s.cfg, midWord s.cfg] [] 0 s t

/-- R185: in every output word the code of sub-step `j` stands in bits `[DS_W*j + DS_W - 1 : DS_W*j]` and every bit from
`DS_W * DS_N` up is 0; each code is in `[0, 2^DS_W - 1]`, and `2^(DS_W-1)` is the level of PCM zero. -/
def Obligations.CodesArePacked : Prop :=
  ∀ (cfg : Config) (ch ch' : Channel) (x w : Word), configOk cfg = true →
    encodeChannel cfg ch x = some (ch', w) →
    ∃ codes, subSteps cfg ch.integ (subSamples cfg ch.prev.toInt x.toInt) = some (ch'.integ, codes) ∧
      codes.length = cfg.dsN ∧ ch'.prev = x ∧
      (∀ (j : Nat) (code : Int), codes[j]? = some code →
        0 ≤ code ∧ code ≤ 2 ^ cfg.dsW - 1 ∧ ((w.extractLsb' (cfg.dsW * j) cfg.dsW).toNat : Int) = code) ∧
      (∀ k, cfg.dsW * cfg.dsN ≤ k → w.getLsbD k = false) ∧
      dequantize cfg ((2 ^ (cfg.dsW - 1) : Nat) : Int) = 0

/-- R182: held sub-samples all equal the input; interpolated ones are the previous sample plus the shares of the way to the
input, rounded down, climb toward the input, end on it exactly, and never leave the interval between the two; in both
modes the input becomes the previous sample. -/
def Obligations.SubSamplesRamp : Prop :=
  ∀ (cfg : Config) (p x : Int), configOk cfg = true →
    (subSamples cfg p x).length = cfg.dsN ∧
    (∀ ch ch' x w, encodeChannel cfg ch x = some (ch', w) → ch'.prev = x) ∧
    (cfg.dsLerp = 1 → ∀ j : Nat, j < cfg.dsN →
      (subSamples cfg p x)[j]? = some (p + Int.fdiv ((x - p) * ((j : Int) + 1)) cfg.dsN)) ∧
    (cfg.dsLerp = 0 → subSamples cfg p x = List.replicate cfg.dsN x) ∧
    (cfg.dsLerp = 1 → (subSamples cfg p x).getLast? = some x ∧
      (p ≤ x → (subSamples cfg p x).Pairwise (· ≤ ·) ∧ ∀ u ∈ subSamples cfg p x, p ≤ u ∧ u ≤ x) ∧
      (x ≤ p → (subSamples cfg p x).Pairwise (· ≥ ·) ∧ ∀ u ∈ subSamples cfg p x, x ≤ u ∧ u ≤ p))

/-- 43_encoder.md section 8 (noise transfer): from zero integrators, as long as none overflows, the quantized outputs are
the sub-samples delayed by one plus the `DS_M`-th backward difference of the quantization errors; where the code does
not saturate an error is at most 0 and above minus one quantizer step; the code saturates at 0 below the quantizer's range
and at `QMAX` above it (section 4). -/
def Obligations.NoiseTransfer : Prop :=
  (∀ (cfg : Config) (us : List Int), 1 ≤ cfg.dsM → subSteps cfg (List.replicate cfg.dsM 0) us ≠ none →
    let run := shaperTrace cfg (List.replicate cfg.dsM 0) us
    run.length = us.length ∧
    run.map Prod.snd =
      List.zipWith (· + ·) (0 :: us) (differencesN cfg.dsM (run.map fun e => e.2 - e.1))) ∧
  ∀ (cfg : Config) (v : Int),
    (0 ≤ asr (v + bias cfg) (qShift cfg) → asr (v + bias cfg) (qShift cfg) ≤ qMax cfg →
      -((2 ^ qShift cfg : Nat) : Int) < dequantize cfg (quantize cfg v) - v ∧
      dequantize cfg (quantize cfg v) - v ≤ 0) ∧
    (asr (v + bias cfg) (qShift cfg) < 0 → quantize cfg v = 0) ∧
    (qMax cfg < asr (v + bias cfg) (qShift cfg) → quantize cfg v = 2 ^ cfg.dsW - 1)

/-! The feedback controller. -/

/-- 44_rate_feedback.md section 1 (`FBC`): with a valid format the controller is seeded from the nominal value and its
band; without one nothing changes. -/
def Obligations.FbcSeedsFromTheNominalValue : Prop :=
  (∀ (s : State) (r : Rate) (d : Depth), Ready .p s → s.fmt = { rate := some r, depth := some d, valid := true } →
    let nominal := (s.cfg.nominal.get r).get d
    let band := nominal * s.cfg.fbBandPpm / 1000000
    ∃ t, exec .fbc s = .next t ∧
      t.fb.value = nominal ∧ t.fb.nominal = nominal ∧ t.fb.min = nominal - band ∧ t.fb.max = nominal + band ∧
      t.fb.target = s.cfg.fbTarget.get r ∧ t.fb.lastTicks = 0 ∧ t.fb.haveLast = false ∧ t.fb.configured = true ∧
      Ends [.feedbackValue, .feedbackTicks, .feedbackBounds] [statusWord .ok 0] [] 0 s t) ∧
  (∀ s : State, Ready .p s → s.fmt.valid = false →
    ∃ t, exec .fbc s = .next t ∧ Ends [] [statusWord .formatErr 0] [] 0 s t)

/-- 44_rate_feedback.md sections 1 and 2 (`FBU`): refused without a valid format and a configured controller; else the
tick count is kept, and the value is either held on a glitch or set from the clamped error. -/
def Obligations.FbuUpdatesTheValue : Prop :=
  (∀ (s : State) (tick : Word), Ready .p s → s.fmt.valid = false ∨ s.fb.configured = false →
    ∃ t, exec (.fbu tick) s = .next t ∧
      Ends [] [statusWord .formatErr 0, BitVec.ofNat 32 s.fb.value] [] 0 s t) ∧
  ∀ (s : State) (tick : Word) (r : Rate) (d : Depth), Ready .p s →
    s.fmt = { rate := some r, depth := some d, valid := true } → s.fb.configured = true →
    let glitch := s.fb.haveLast = true ∧
      s.cfg.fbGlitchPpm * s.fb.lastTicks.toNat < ((tick.toNat : Int) - s.fb.lastTicks.toNat).natAbs * 1000000
    ∃ t, exec (.fbu tick) s = .next t ∧ t.fb.lastTicks = tick ∧ t.fb.haveLast = true ∧
      (glitch → Ends [.feedbackTicks] [statusWord .fbGlitch 0, BitVec.ofNat 32 s.fb.value] [] 0 s t) ∧
      (¬ glitch →
        Ends [.feedbackValue, .feedbackTicks] [statusWord .ok 0, BitVec.ofNat 32 t.fb.value] [] 0 s t ∧
        ∃ e : Int, e = clamp (s.fb.target - (s.q.total / 2 ^ r.stages : Nat)) (-s.cfg.fbErrLimit) s.cfg.fbErrLimit ∧
          -(s.cfg.fbErrLimit : Int) ≤ e ∧ e ≤ s.cfg.fbErrLimit ∧
          (t.fb.value : Int) = clamp (s.fb.nominal + e * s.cfg.fbErrScale) s.fb.min s.fb.max)

/-- R203: `FBR` is the word 0x52000000, accepted on the `P` and the `T` port, one step (so it reads the register in one
piece); it returns the feedback value and changes nothing; the value is 0 after reset and stays 0 until a configuration. -/
def Obligations.FbrReadsTheValue : Prop :=
  encode .fbr = [0x52000000] ∧
  (∀ s, begin .fbr s = exec .fbr s) ∧
  (∀ s, s.issuer = .c → ∃ t, exec .fbr s = .next t ∧ Ends [] [statusWord .illegal 0, 0] [] 0 s t) ∧
  (∀ s : State, Ready .p s ∨ Ready .t s →
    ∃ t, exec .fbr s = .next t ∧ Ends [] [statusWord .ok 0, BitVec.ofNat 32 s.fb.value] [] 0 s t) ∧
  (∀ cfg, (State.resetWith cfg).fb.value = 0) ∧
  ∀ s t : State, (s.fb.configured = false → s.fb.value = 0) → step s = .next t → t.fb.configured = false →
    t.fb.value = 0

/-- 44_rate_feedback.md section 2 and 10_state.md section 7: no step takes a feedback register out of its 32 bits or, once
configured, the value or the nominal value out of the band. -/
def Obligations.FeedbackInvKept : Prop :=
  ∀ s t : State, FeedbackInv s → step s = .next t → FeedbackInv t

/-! The cycles. -/

/-- R222: raw sample words at each depth, and that every normalised sample is in the 24-bit range; and what enters the
cascade is each normalised sample through the volume stage (45_pipeline.md sections 2 and 3: R223, R224 line 3). That `vol`
is carried as a table is the model's choice (log 2). -/
def Obligations.Normalisation : Prop :=
  (∀ w : Word,
    Machine.norm .d16 w = sext 16 w.toNat * 256 ∧ Machine.norm .d24 w = sext 24 w.toNat ∧
    Machine.norm .d32 w = asr (sext 32 w.toNat) 8) ∧
  (∀ (d : Depth) (w : Word), -8388608 ≤ Machine.norm d w ∧ Machine.norm d w ≤ 8388607) ∧
  Machine.norm .d16 0x7FFF = 8388352 ∧ Machine.norm .d16 0x8000 = -8388608 ∧ Machine.norm .d32 0x7FFFFFFF = 8388607 ∧
  Machine.norm .d32 0xFFFFFFFF = -1 ∧ Machine.norm .d32 0x000000FF = 0 ∧
  Machine.norm .d24 0x7FFFFF = 8388607 ∧ Machine.norm .d24 0x800000 = -8388608 ∧ Machine.norm .d32 0x80000000 = -8388608 ∧
  (∀ (cfg : Config) (d : Depth) (raw : Block),
    rawBlock cfg d raw = raw.map fun p => ⟨rawSample cfg d p.l, rawSample cfg d p.r⟩) ∧
  ∀ (cfg : Config) (d : Depth) (w : Word), ∃ x : BitVec 24, x.toInt = Machine.norm d w ∧
    (rawSample cfg d w).toInt = (vol cfg x).toInt ∧
    (∀ y, (x, y) ∈ cfg.vol → (∀ z, (x, z) ∈ cfg.vol → z = y) → vol cfg x = y) ∧
    ((∀ y, (x, y) ∉ cfg.vol) → vol cfg x = x)

/-- 45_pipeline.md section 3: a producer cycle that ends at line 2 or 3 keeps what line 1 did (the signal taken, and when
it was set the cascade cleared, the modulator reset asked for, the feedback seeded where the format is valid) and makes
no other change. -/
def Obligations.PcyEndsEarly : Prop :=
  (∀ (s : State) (tick : Word) (raw : Block), Ready .p s → s.fmt.valid = false →
    ∃ t, exec (.pcy tick raw) s = .next t ∧ t.fv.updated = false ∧
      (s.fv.updated = true →
        t.dsResetReq = true ∧ (∀ st, t.os.get st = (State.resetWith s.cfg).os.get st) ∧
        Ends [.fvUpdated, .stage .s0, .stage .s1, .stage .s2, .resetRequest] [statusWord .formatErr 0] [] 0 s t) ∧
      (s.fv.updated = false → Ends [] [statusWord .formatErr 0] [] 0 s t)) ∧
  ∀ (s : State) (tick : Word) (raw : Block) (r : Rate) (d : Depth), Ready .p s →
    s.fmt = { rate := some r, depth := some d, valid := true } → s.cfg.frameMax < raw.length * 2 ^ r.stages →
    ∃ t, exec (.pcy tick raw) s = .next t ∧ t.fv.updated = false ∧
      (s.fv.updated = true →
        t.dsResetReq = true ∧ (∀ st, t.os.get st = (State.resetWith s.cfg).os.get st) ∧
        t.fb = (seedFeedback r d s).fb ∧
        Ends [.fvUpdated, .stage .s0, .stage .s1, .stage .s2, .resetRequest, .feedbackValue, .feedbackTicks,
          .feedbackBounds] [statusWord .widthErr 0] [] 0 s t) ∧
      (s.fv.updated = false → Ends [] [statusWord .widthErr 0] [] 0 s t)

/-- 45_pipeline.md section 3 and 70_reset_and_hazards.md section 4 (R315): a producer cycle with a valid format and a
block that fits puts one frame of `len * 2^stages` pairs into the slot at the write cursor, less the last pair when the
occupancy was `BACKPRESSURE_LEVEL` or more (the device's level is `N_SLOTS - 1` and it loses one pair:
InvariantsHoldAtReset; another configuration may lose more of its last pairs); nothing is enqueued when no pair is left or the queue is full. -/
def Obligations.PcyQueuesTheBlock : Prop :=
  ∀ (s : State) (tick : Word) (raw : Block) (r : Rate) (d : Depth), Ready .p s → RingHolds s →
    s.fmt = { rate := some r, depth := some d, valid := true } → raw.length * 2 ^ r.stages ≤ s.cfg.frameMax →
    let os := if s.fv.updated then cascadeZero s.cfg else s.os
    let y := cascadeBlock s.cfg os (Stage.firstStages r.stages) (rawBlock s.cfg d raw)
    let n := if s.cfg.backpressureLevel ≤ s.q.occ then raw.length * 2 ^ r.stages - s.cfg.backpressurePairs
      else raw.length * 2 ^ r.stages
    let fb := updateFeedback tick s.q.total (if s.fv.updated then seedFeedback r d s else s)
    ∃ t st, exec (.pcy tick raw) s = .next t ∧
      Ends (mayWrite (.pcy tick raw)) [statusWord st 0] [] 0 s t ∧
      t.fv.updated = false ∧ t.os = y.1 ∧ t.fb = fb.2.fb ∧ t.dsResetReq = (s.dsResetReq || s.fv.updated) ∧
      (0 < n → s.q.occ < s.cfg.nSlots →
        (st = .fbGlitch ↔ fb.1 = .fbGlitch) ∧ (st = .ok ↔ fb.1 ≠ .fbGlitch) ∧
        t.q.header s.q.wc = { len := n, group := r.family } ∧
        (∀ i, i ≠ s.q.wc → t.q.header i = s.q.header i) ∧
        (∀ j, j < n → t.q.data.read (s.q.wc * s.cfg.frameMax + j) = y.2[j]?) ∧
        (∀ a, (∀ j, j < n → a ≠ s.q.wc * s.cfg.frameMax + j) → t.q.data.read a = s.q.data.read a) ∧
        t.q.lock = s.q.lock ∧
        t.q.wc = (s.q.wc + 1) % s.cfg.nSlots ∧ t.q.occ = s.q.occ + 1 ∧ t.q.total = s.q.total + n) ∧
      (0 < n → s.q.occ = s.cfg.nSlots → st = .qFull ∧ t.q = s.q) ∧
      (n = 0 → (st = .fbGlitch ↔ fb.1 = .fbGlitch) ∧ (st = .ok ↔ fb.1 ≠ .fbGlitch) ∧ t.q = s.q)

/-- 45_pipeline.md section 3: a producer cycle does to every piece of state but `x.ds_reset_req` what the operations it is
built from do when they are issued one after another. -/
def Obligations.PcyIsItsParts : Prop :=
  ∀ (s : State) (tick : Word) (raw : Block) (r : Rate) (d : Depth), Ready .p s → RingHolds s →
    s.fmt = { rate := some r, depth := some d, valid := true } → raw.length * 2 ^ r.stages ≤ s.cfg.frameMax →
    let x := rawBlock s.cfg d raw
    let os := if s.fv.updated then cascadeZero s.cfg else s.os
    let y := backpressure s.cfg s.q.occ (cascadeBlock s.cfg os (Stage.firstStages r.stages) x).2
    ∃ t u, exec (.pcy tick raw) s = .next t ∧
      execAll ([.fvt] ++ (if s.fv.updated then [.osz, .fbc] else []) ++
        [.qoc, .osa r.code x, .fbu tick, .qen r.family y]) s = .next u ∧
      (∀ item, item ≠ Item.resetRequest → item.same u t) ∧
      t.dsResetReq = (s.dsResetReq || s.fv.updated) ∧ u.dsResetReq = s.dsResetReq

/-- 45_pipeline.md section 4 and 42_queue.md section 7: a muted cycle below the play threshold encodes `SILENCE_LEN` pairs
(0, 0) as `DSE` does one by one, from the modulator as it stands (reset first when that was asked for), with the family
line as it stands, and reports `Q_EMPTY`; from a modulator in its reset state, and in the cycle that finds a playing queue
empty, the words are mid-scale; the queue is not touched. -/
def Obligations.CcyEmitsSilence : Prop :=
  (∀ s : State, Ready .c s → s.mute = .muted → s.q.occ < s.cfg.playThreshold →
    ∃ t, exec .ccy s = .next t ∧ t.dsResetReq = false ∧
      CycleEncodes [.resetRequest, .modulator] .qEmpty s.family s.dsResetReq
        (List.replicate s.cfg.silenceLen ⟨0, 0⟩) s t) ∧
  ∀ s : State, Ready .c s → configOk s.cfg = true →
    (s.mute = .muted → s.q.occ < s.cfg.playThreshold → s.ds = Modulator.zero s.cfg ∨ s.dsResetReq = true →
      ∃ t, exec .ccy s = .next t ∧ t.dsResetReq = false ∧ t.ds = Modulator.zero s.cfg ∧
        Ends [.resetRequest, .modulator]
          (statusWord .qEmpty s.cfg.silenceLen :: List.replicate (2 * s.cfg.silenceLen) (midWord s.cfg))
          (List.replicate s.cfg.silenceLen ⟨midWord s.cfg, midWord s.cfg, s.family⟩) 0 s t) ∧
    (s.mute = .playing → s.q.occ = 0 → RingHolds s →
      ∃ t, exec .ccy s = .next t ∧ t.dsResetReq = false ∧ t.ds = Modulator.zero s.cfg ∧ t.mute = .muted ∧
        Ends [.resetRequest, .modulator, .mute]
          (statusWord .qEmpty s.cfg.silenceLen :: List.replicate (2 * s.cfg.silenceLen) (midWord s.cfg))
          (List.replicate s.cfg.silenceLen ⟨midWord s.cfg, midWord s.cfg, s.family⟩) 0 s t)

/-- 45_pipeline.md section 4: a cycle that finds a frame while playing, or the play threshold while muted, dequeues the
oldest frame, encodes all of it in order as `DSE` does pair by pair, from the modulator as it stands (reset first when that
was asked for), sends the words out with the frame's group and ends `PLAYING`; when an integrator overflows it reports
`DS_OVERFLOW` with the frame dequeued (log 1: what is emitted then, and how much, is free). -/
def Obligations.CcyPlaysAFrame : Prop :=
  ∀ s : State, Ready .c s → RingHolds s → 0 < s.q.occ → s.mute = .playing ∨ s.cfg.playThreshold ≤ s.q.occ →
    let group := (s.q.header s.q.rc).group
    ∃ t b, exec .ccy s = .next t ∧
      b.length = (s.q.header s.q.rc).len ∧
      (∀ j, j < b.length → s.q.data.read (s.q.rc * s.cfg.frameMax + j) = b[j]?) ∧
      t.mute = .playing ∧ t.dsResetReq = false ∧ t.family = group ∧
      t.q.rc = (s.q.rc + 1) % s.cfg.nSlots ∧ t.q.occ = s.q.occ - 1 ∧ t.q.total = s.q.total - b.length ∧
      CycleEncodes (mayWrite .ccy) .ok group s.dsResetReq b s t

/-- 42_queue.md sections 7 and 8 (mute hysteresis), over every step of every interleaving: the consumer leaves `MUTED`
only in a step that finds the play threshold reached, and leaves `PLAYING` only in a step that finds the queue empty. -/
def Obligations.MuteHysteresis : Prop :=
  ∀ s t : State, step s = .next t →
    (s.mute = .muted → t.mute = .playing → s.cfg.playThreshold ≤ s.q.occ) ∧
    (s.mute = .playing → t.mute = .muted → s.q.occ = 0)

/-! The system operations. -/

/-- R233 (the sixteen configuration invariants), and 45_pipeline.md section 5: `INIT` runs once, in `UNINIT`, checks them,
and writes `sys.life` only. -/
def Obligations.InitChecksTheConfiguration : Prop :=
  (∀ c : Config, configOk c = true ↔
    (2 ≤ c.nSlots ∧ c.nSlots ≤ 255) ∧
    (1 ≤ c.frameMax ∧ c.frameMax ≤ 65535) ∧
    (0 < c.playThreshold ∧ c.playThreshold < c.nSlots) ∧
    (1 ≤ c.silenceLen ∧ c.silenceLen ≤ c.frameMax) ∧
    (1 ≤ c.stage.s0.taps ∧ c.stage.s0.taps < c.stage.s1.taps ∧ c.stage.s1.taps < c.stage.s2.taps ∧
      ∀ st, (c.stage.get st).coef.length = (c.stage.get st).taps) ∧
    (∀ st, (c.stage.get st).shift ≤ 31) ∧
    c.dsM ≤ 5 ∧
    (4 ≤ c.dsW ∧ c.dsW ≤ 6) ∧
    c.dsM < c.dsW ∧
    ((c.dsN = 4 ∨ c.dsN = 8) ∧ c.dsN * c.dsW ≤ 32) ∧
    (c.dsLerp = 0 ∨ c.dsLerp = 1) ∧
    (25 ≤ c.dsInBits ∧ c.dsInBits ≤ c.intBits) ∧
    (0 < c.fRef ∧ 0 < c.fvWordPeriods ∧ 0 < c.fvBitPeriods) ∧
    ((∀ d, 0 < c.ratio.get d) ∧ ∀ d d', c.ratio.get d = c.ratio.get d' → d = d') ∧
    0 < c.fbErrScale ∧
    ∀ r, c.fbTarget.get r < 2 ^ 32 ∧
      ∀ d, (c.nominal.get r).get d + (c.nominal.get r).get d * c.fbBandPpm / 1000000 < 2 ^ 32) ∧
  ∀ s : State, s.issuer = .p →
    ∃ t, exec .init s = .next t ∧
      (s.life = .uninit → configOk s.cfg = true → t.life = .ready ∧ Ends [.life] [statusWord .ok 0] [] 0 s t) ∧
      (s.life = .uninit → configOk s.cfg = false → t.life = .failed ∧ Ends [.life] [statusWord .configErr 0] [] 0 s t) ∧
      (s.life ≠ .uninit → Ends [] [statusWord .illegal 0] [] 0 s t)

/-- R236 and R46: `RDS`, one step, reads registers 0 to 13 on every port and in every value of `sys.life`, with the bits
where the map puts them and every unlisted bit 0, and changes nothing; a reserved number is refused. Of a configuration
parameter that does not fit its field nothing is said (log 11). -/
def Obligations.RdsReadsARegister : Prop :=
  (∀ n : BitVec 16, encode (.rds n) = [0x71000000 ||| n.setWidth 32]) ∧
  (∀ s n, begin (.rds n) s = exec (.rds n) s) ∧
  (∀ (s : State) (n : BitVec 16), n.toNat ≤ 13 →
    ∃ w t, statusRegister s n.toNat = some w ∧ exec (.rds n) s = .next t ∧ Ends [] [statusWord .ok 0, w] [] 0 s t) ∧
  (∀ (s : State) (n : BitVec 16), 13 < n.toNat →
    ∃ t, exec (.rds n) s = .next t ∧ Ends [] [statusWord .illegal 0, 0] [] 0 s t) ∧
  ∀ s : State,
    (∃ w, statusRegister s 0 = some w ∧ w.extractLsb' 0 4 = rateCode s.fmt.rate ∧
      w.extractLsb' 4 2 = depthCode s.fmt.depth ∧ w.getLsbD 6 = s.fmt.valid ∧ w.getLsbD 7 = s.fv.updated ∧
      w.extractLsb' 8 24 = 0) ∧
    (∃ w, statusRegister s 1 = some w ∧ w.extractLsb' 0 8 = BitVec.ofNat 8 s.q.occ ∧ w.extractLsb' 8 24 = 0) ∧
    statusRegister s 2 = some (BitVec.ofNat 32 s.q.total) ∧
    (∃ w, statusRegister s 3 = some w ∧ w.extractLsb' 0 8 = BitVec.ofNat 8 s.q.wc ∧
      w.extractLsb' 8 8 = BitVec.ofNat 8 s.q.rc ∧ w.extractLsb' 16 16 = 0) ∧
    (∃ w, statusRegister s 4 = some w ∧ (w.getLsbD 0 = true ↔ s.mute = .muted) ∧ w.getLsbD 1 = s.dsResetReq ∧
      (w.getLsbD 2 = true ↔ s.family = .f48) ∧
      (w.extractLsb' 3 2).toNat = (match s.life with | .uninit => 0 | .ready => 1 | .failed => 2) ∧
      w.getLsbD 5 = s.fb.haveLast ∧ w.getLsbD 6 = s.fb.configured ∧ w.extractLsb' 7 25 = 0) ∧
    statusRegister s 5 = some (BitVec.ofNat 32 s.fb.value) ∧
    statusRegister s 6 = some (BitVec.ofNat 32 s.fb.nominal) ∧
    statusRegister s 7 = some (BitVec.ofNat 32 s.fb.min) ∧
    statusRegister s 8 = some (BitVec.ofNat 32 s.fb.max) ∧
    statusRegister s 9 = some (BitVec.ofNat 32 s.fb.target) ∧
    statusRegister s 10 = some s.fb.lastTicks ∧
    (∃ w, statusRegister s 11 = some w ∧ w.extractLsb' 0 4 = rateCode s.fv.prevRate ∧
      w.extractLsb' 4 2 = depthCode s.fv.prevDepth ∧ w.extractLsb' 6 26 = 0) ∧
    (∃ w, statusRegister s 12 = some w ∧
      (s.cfg.nSlots < 256 → (w.extractLsb' 0 8).toNat = s.cfg.nSlots) ∧
      (s.cfg.playThreshold < 256 → (w.extractLsb' 8 8).toNat = s.cfg.playThreshold) ∧
      (s.cfg.dsM < 8 → (w.extractLsb' 16 3).toNat = s.cfg.dsM) ∧
      (s.cfg.dsW < 8 → (w.extractLsb' 19 3).toNat = s.cfg.dsW) ∧
      (s.cfg.dsN < 16 → (w.extractLsb' 22 4).toNat = s.cfg.dsN) ∧
      (s.cfg.dsLerp < 2 → (w.extractLsb' 26 1).toNat = s.cfg.dsLerp) ∧ w.extractLsb' 27 5 = 0) ∧
    (∃ w, statusRegister s 13 = some w ∧
      (s.cfg.frameMax < 65536 → (w.extractLsb' 0 16).toNat = s.cfg.frameMax) ∧
      (s.cfg.silenceLen < 65536 → (w.extractLsb' 16 16).toNat = s.cfg.silenceLen))

/-! The whole machine. -/

/-- 10_state.md section 9: an operation writes no piece of state outside its row of the table, no configuration, no
schedule and no port but its own output, and only `CCY` sends words to the physical output stage. Of the slots `QEN` and
`PCY` write the one at the write cursor alone: no other header, and no cell but those of the pairs stored there; `QRS`
writes every header and no slot data. -/
def Obligations.OperationsWriteOnlyTheirRow : Prop :=
  ∀ (i : Instr) (s t : State), exec i s = .next t →
    (∃ response stream draws, Ends (mayWrite i) response stream draws s t ∧ (i.row ≠ .ccy → stream = [])) ∧
    (i.row = .qen ∨ i.row = .pcy →
      t.q.hdr.length = s.q.hdr.length ∧ (∀ k, k ≠ s.q.wc → t.q.header k = s.q.header k) ∧
      (∀ a, (∀ j, j < t.q.total - s.q.total → a ≠ slotCell s.cfg s.q.wc j) → t.q.data.read a = s.q.data.read a) ∧
      t.q.lock = s.q.lock) ∧
    (i.row = .qrs → t.q.hdr.length = s.q.hdr.length ∧ t.q.data = s.q.data ∧ t.q.lock = s.q.lock)

/-- 10_state.md sections 1 and 6, 20_memory.md section 6 (shared and private state): from a state with the ring invariant,
a step of the consumer writes nothing the producer owns, a step of the producer nothing the consumer owns and the read
cursor only by `QRS`, and a step of the transport's reader writes no state of the block. -/
def Obligations.AgentsWriteOnlyTheirOwn : Prop :=
  ∀ (s t : State) (turn : Turn) (sched : List Turn), RingInv s → s.sched = turn :: sched → step s = .next t →
    (turn.port = .c → (∀ x ∈ producerItems, x.same s t) ∧ t.portP = s.portP ∧ t.portT = s.portT) ∧
    (turn.port = .p → (∀ x ∈ consumerItems, x.same s t) ∧ t.portC = s.portC ∧ t.portT = s.portT ∧
      (t.q.rc ≠ s.q.rc → ∃ tail, decode s.portP.input = .ok (.qrs, tail))) ∧
    (turn.port = .t → (∀ x : Item, x.same s t) ∧ t.portP = s.portP ∧ t.portC = s.portC ∧ t.emitted = s.emitted)

/-- 10_state.md section 2, 20_memory.md section 7 and 45_pipeline.md section 5: no step writes the configuration; the
lifecycle invariant is kept; `sys.life` leaves `UNINIT` only by `INIT` on the `P` port and never leaves `READY` or
`FAILED`. -/
def Obligations.LifecycleChangesOnlyByInit : Prop :=
  ∀ s t : State, LifecycleInv s → step s = .next t →
    LifecycleInv t ∧ t.cfg = s.cfg ∧ (s.life ≠ .uninit → t.life = s.life) ∧
    (t.life ≠ s.life → ∃ turn sched tail, s.sched = turn :: sched ∧ turn.port = .p ∧
      decode s.portP.input = .ok (.init, tail) ∧ t.life = if configOk s.cfg then .ready else .failed)

end
end

