-- ==== Sys2Proof/Laws/Decode.lean ====
section
/-! SUPPORT. The command word's fields, and what the payload readers do. -/

namespace Sys2Proof

/-- The fields of a command word made of fields (R92). -/
@[simp] theorem Fields.ofWord_toWord (f : Fields) : Fields.ofWord f.toWord = f := by
  obtain ⟨op, a, b, imm⟩ := f
  simp only [Fields.ofWord, Fields.toWord, Fields.mk.injEq]
  refine ⟨?_, ?_, ?_, ?_⟩ <;> ext i hi <;>
    simp only [BitVec.getElem_extractLsb', BitVec.getLsbD_append]
  · rw [if_neg (by omega), if_neg (by omega), if_neg (by omega)]
    simp [show 24 + i - 16 - 4 - 4 = i by omega, BitVec.getLsbD_eq_getElem hi]
  · rw [if_neg (by omega), if_neg (by omega), if_pos (by omega)]
    simp [show 20 + i - 16 - 4 = i by omega, BitVec.getLsbD_eq_getElem hi]
  · rw [if_neg (by omega), if_pos (by omega)]
    simp [show 16 + i - 16 = i by omega, BitVec.getLsbD_eq_getElem hi]
  · rw [if_pos (by omega)]
    simp [BitVec.getLsbD_eq_getElem hi]

/-- A command word is determined by its fields (R92). -/
@[simp] theorem Fields.toWord_ofWord (w : Word) : (Fields.ofWord w).toWord = w := by
  refine BitVec.eq_of_getLsbD_eq fun i hi => ?_
  simp only [Fields.ofWord, Fields.toWord]
  erw [BitVec.getLsbD_append, BitVec.getLsbD_append, BitVec.getLsbD_append]
  simp only [BitVec.getLsbD_extractLsb']
  split
  · simp [*]
  · split
    · simp [show 16 + (i - 16) = i by omega, *]
    · split
      · simp [show 20 + (i - 16 - 4) = i by omega, *]
      · simp [show 24 + (i - 16 - 4 - 4) = i by omega, show i - 16 - 4 - 4 < 8 by omega]

/-- The words of a block: two for each pair. -/
@[simp] theorem Block.words_length (b : Block) : (Block.words b).length = 2 * b.length := by
  induction b with
  | nil => rfl
  | cons p b ih => simp [Block.words, ih]; omega

/-- The words of two blocks one after the other. -/
theorem Block.words_append (b b' : Block) : Block.words (b ++ b') = Block.words b ++ Block.words b' := by
  induction b with
  | nil => rfl
  | cons p b ih => simp [Block.words, ih]

/-- Splitting `n` pairs off succeeds exactly on the words of a block of `n` pairs and what follows. -/
theorem splitPairs_eq_some {n : Nat} {ws : List Word} {b : Block} {rest : List Word} :
    splitPairs n ws = some (b, rest) ↔ ws = Block.words b ++ rest ∧ b.length = n := by
  induction n generalizing ws b with
  | zero =>
    constructor
    · intro h; cases h; exact ⟨rfl, rfl⟩
    · rintro ⟨h, hl⟩
      cases b with
      | nil => simp [splitPairs, h, Block.words]
      | cons p b => simp at hl
  | succ n ih =>
    constructor
    · intro h
      match ws, h with
      | l :: r :: ws, h =>
        simp only [splitPairs] at h
        split at h
        · rename_i b' rest' hb
          cases h
          obtain ⟨hw, hl⟩ := ih.mp hb
          exact ⟨by rw [hw]; rfl, by simp [hl]⟩
        · cases h
    · rintro ⟨h, hl⟩
      cases b with
      | nil => simp at hl
      | cons p b =>
        subst h
        simp [Block.words, splitPairs, ih.mpr ⟨rfl, by simpa using hl⟩]

/-- The same, a chunk of 256 pairs at a time. -/
theorem splitChunks_eq_some {c : Nat} {ws : List Word} {b : Block} {rest : List Word} :
    splitChunks c ws = some (b, rest) ↔ ws = Block.words b ++ rest ∧ b.length = 256 * c := by
  induction c generalizing ws b with
  | zero => exact splitPairs_eq_some (n := 0)
  | succ c ih =>
    constructor
    · intro h
      simp only [splitChunks] at h
      split at h
      · cases h
      · rename_i b1 ws1 h1
        split at h
        · cases h
        · rename_i b2 rest2 h2
          cases h
          obtain ⟨hw1, hl1⟩ := splitPairs_eq_some.mp h1
          obtain ⟨hw2, hl2⟩ := ih.mp h2
          exact ⟨by rw [hw1, hw2, Block.words_append, List.append_assoc], by simp [hl1, hl2]; omega⟩
    · rintro ⟨h, hl⟩
      have hb : b = b.take 256 ++ b.drop 256 := (List.take_append_drop 256 b).symm
      have h1 : splitPairs 256 ws = some (b.take 256, Block.words (b.drop 256) ++ rest) := by
        refine splitPairs_eq_some.mpr ⟨?_, by simp; omega⟩
        rw [h, ← List.append_assoc, ← Block.words_append, ← hb]
      have h2 : splitChunks c (Block.words (b.drop 256) ++ rest) = some (b.drop 256, rest) :=
        ih.mpr ⟨rfl, by simp; omega⟩
      simp only [splitChunks, h1, h2]
      rw [← hb]

/-- Taking `n` pairs succeeds exactly on the words of a block of `n` pairs and what follows. -/
theorem takePairs_eq_some {n : Nat} {ws : List Word} {b : Block} {rest : List Word} :
    takePairs n ws = some (b, rest) ↔ ws = Block.words b ++ rest ∧ b.length = n := by
  constructor
  · intro h
    simp only [takePairs] at h
    split at h
    · cases h
    · rename_i b1 ws1 h1
      split at h
      · cases h
      · rename_i b2 rest2 h2
        cases h
        obtain ⟨hw1, hl1⟩ := splitChunks_eq_some.mp h1
        obtain ⟨hw2, hl2⟩ := splitPairs_eq_some.mp h2
        exact ⟨by rw [hw1, hw2, Block.words_append, List.append_assoc], by simp [hl1, hl2]; omega⟩
  · rintro ⟨h, hl⟩
    have hb : b = b.take (256 * (n / 256)) ++ b.drop (256 * (n / 256)) := (List.take_append_drop _ b).symm
    have h1 : splitChunks (n / 256) ws =
        some (b.take (256 * (n / 256)), Block.words (b.drop (256 * (n / 256))) ++ rest) := by
      refine splitChunks_eq_some.mpr ⟨?_, by simp; omega⟩
      rw [h, ← List.append_assoc, ← Block.words_append, ← hb]
    have h2 : splitPairs (n % 256) (Block.words (b.drop (256 * (n / 256))) ++ rest) =
        some (b.drop (256 * (n / 256)), rest) :=
      splitPairs_eq_some.mpr ⟨rfl, by simp; omega⟩
    simp only [takePairs, h1, h2]
    rw [← hb]

/-- A payload is read exactly from the words of its block. -/
theorem withPayload_eq_ok {n : Nat} {f : Block → Instr} {ws : List Word} {i : Instr} {rest : List Word} :
    withPayload n f ws = .ok (i, rest) ↔ ∃ b, i = f b ∧ ws = Block.words b ++ rest ∧ b.length = n := by
  unfold withPayload
  cases h : takePairs n ws with
  | none =>
    refine ⟨fun h' => by simp at h', ?_⟩
    rintro ⟨b, -, hw, hl⟩
    rw [takePairs_eq_some.mpr ⟨hw, hl⟩] at h
    cases h
  | some x =>
    obtain ⟨b, r⟩ := x
    obtain ⟨hw, hl⟩ := takePairs_eq_some.mp h
    constructor
    · intro h'; cases h'; exact ⟨b, rfl, hw, hl⟩
    · rintro ⟨b', rfl, hw', hl'⟩
      rw [takePairs_eq_some.mpr ⟨hw', hl'⟩] at h
      cases h
      rfl

end Sys2Proof
end

