-- ==== Sys2Proof/Laws/Memory.lean ====
section
/-! SUPPORT. The slot memory: read after write, the canonical form, and what a block read or written in one call does. -/

namespace Sys2Proof.Machine

/-- The memory after reset is canonical. -/
theorem Memory.wf_nil : Memory.wf ([] : Memory) := List.Pairwise.nil

/-- A read after a write to the same cell gives the pair written. -/
@[simp] theorem Memory.read_write_same (m : Memory) (a : Nat) (p : Pair) : (Memory.write m a p).read a = some p := by
  induction m with
  | nil => simp [Memory.write, Memory.read]
  | cons e m ih =>
    obtain ⟨b, v⟩ := e
    simp only [Memory.write]
    split
    · simp [Memory.read]
    · split
      · simp [Memory.read]
      · rename_i _ h
        simp [Memory.read, h, ih]

/-- In a memory whose cells all lie above `a`, nothing is listed for `a`. -/
theorem Memory.read_none_of_lt (m : Memory) (a : Nat) (h : ∀ e ∈ m, a < e.1) : m.read a = none := by
  induction m with
  | nil => rfl
  | cons e m ih =>
    obtain ⟨b, v⟩ := e
    have hb : a < b := h (b, v) (by simp)
    simp only [Memory.read]
    rw [if_neg (by omega)]
    exact ih (fun e he => h e (by simp [he]))

/-- A write leaves every other cell alone. -/
theorem Memory.read_write_other (m : Memory) (a a' : Nat) (p : Pair) (h : a' ≠ a) :
    (Memory.write m a p).read a' = m.read a' := by
  induction m with
  | nil => simp [Memory.write, Memory.read, h]
  | cons e m ih =>
    obtain ⟨b, v⟩ := e
    simp only [Memory.write]
    split
    · simp [Memory.read, h]
    · split
      · rename_i _ hab
        subst hab
        simp [Memory.read, h]
      · simp [Memory.read, ih]

/-- Every cell a write lists was listed before or is the cell written. -/
theorem Memory.mem_write (m : Memory) (a : Nat) (p : Pair) (e : Nat × Pair) (h : e ∈ Memory.write m a p) :
    e = (a, p) ∨ e ∈ m := by
  induction m with
  | nil => simpa [Memory.write] using h
  | cons x m ih =>
    obtain ⟨b, v⟩ := x
    simp only [Memory.write] at h
    split at h
    · simpa using h
    · split at h
      · simp only [List.mem_cons] at h ⊢
        tauto
      · simp only [List.mem_cons] at h ⊢
        rcases h with h | h
        · exact .inr (.inl h)
        · rcases ih h with h | h
          · exact .inl h
          · exact .inr (.inr h)

/-- A write keeps the canonical form. -/
theorem Memory.write_wf (m : Memory) (a : Nat) (p : Pair) (h : m.wf) : (Memory.write m a p).wf := by
  induction m with
  | nil => simp [Memory.write, Memory.wf]
  | cons x m ih =>
    obtain ⟨b, v⟩ := x
    have hm := List.pairwise_cons.mp h
    simp only [Memory.write]
    split
    · rename_i hab
      refine List.pairwise_cons.mpr ⟨?_, h⟩
      intro e he
      rcases List.mem_cons.mp he with rfl | he
      · exact hab
      · exact Nat.lt_trans hab (hm.1 e he)
    · split
      · rename_i _ hab
        subst hab
        exact List.pairwise_cons.mpr ⟨hm.1, hm.2⟩
      · rename_i h1 h2
        refine List.pairwise_cons.mpr ⟨?_, ih hm.2⟩
        intro e he
        rcases Memory.mem_write m a p e he with rfl | he
        · simp only
          omega
        · exact hm.1 e he

/-- One slot write, when it succeeds: the cell is in the space and the memory is the one with that cell written. -/
theorem slotWrite_eq_ok {cfg : Config} {m m' : Memory} {i j : Nat} {p : Pair} (h : slotWrite cfg m i j p = .ok m') :
    inSlotSpace cfg (slotCell cfg i j) ∧ m' = m.write (slotCell cfg i j) p := by
  unfold slotWrite at h
  split at h
  · rename_i hs
    exact ⟨hs, (Except.ok.inj h).symm⟩
  · cases h

/-- A slot write in the space succeeds. -/
theorem slotWrite_of_inSlotSpace {cfg : Config} (m : Memory) {i j : Nat} (p : Pair)
    (h : inSlotSpace cfg (slotCell cfg i j)) : slotWrite cfg m i j p = .ok (m.write (slotCell cfg i j) p) := by
  simp [slotWrite, h]

/-- A cell that has been written holds what was written last. -/
theorem Memory.value_of_read {m : Memory} {a : Nat} {p : Pair} (h : m.read a = some p) : m.value a = p := by
  simp [Memory.value, h]

/-- A cell that nothing has written holds its free value. -/
theorem Memory.value_of_unwritten {m : Memory} {a : Nat} (h : m.read a = none) : m.value a = Config.freeSlot a := by
  simp [Memory.value, h]

/-- Cells that read the same hold the same. -/
theorem Memory.value_congr {m m' : Memory} {a : Nat} (h : m'.read a = m.read a) : m'.value a = m.value a := by
  simp [Memory.value, h]

/-- One slot read, when it succeeds: the cell is in the space and holds the pair. -/
theorem slotRead_eq_ok {cfg : Config} {m : Memory} {i j : Nat} {p : Pair} (h : slotRead cfg m i j = .ok p) :
    inSlotSpace cfg (slotCell cfg i j) ∧ m.value (slotCell cfg i j) = p := by
  unfold slotRead at h
  split at h
  · rename_i hs
    exact ⟨hs, Except.ok.inj h⟩
  · cases h

/-- A slot read in the space succeeds. -/
theorem slotRead_of_inSlotSpace {cfg : Config} (m : Memory) {i j : Nat} (h : inSlotSpace cfg (slotCell cfg i j)) :
    slotRead cfg m i j = .ok (m.value (slotCell cfg i j)) := by
  simp [slotRead, h]

/-- A slot read of a written cell in the space succeeds. -/
theorem slotRead_of_read {cfg : Config} {m : Memory} {i j : Nat} {p : Pair}
    (hs : inSlotSpace cfg (slotCell cfg i j)) (hr : m.read (slotCell cfg i j) = some p) :
    slotRead cfg m i j = .ok p := by
  rw [slotRead_of_inSlotSpace m hs, Memory.value_of_read hr]

/-- A block write keeps the canonical form. -/
theorem slotWriteBlock_wf {cfg : Config} {i : Nat} (b : Block) {j : Nat} {m m' : Memory}
    (h : slotWriteBlock cfg m i j b = .ok m') (hm : m.wf) : m'.wf := by
  induction b generalizing j m with
  | nil => cases h; exact hm
  | cons p b ih =>
    simp only [slotWriteBlock] at h
    split at h
    · cases h
    · rename_i m1 hm1
      exact ih h ((slotWrite_eq_ok hm1).2 ▸ Memory.write_wf m _ p hm)

/-- A block write, when it succeeds: the cells from `j` on hold the block, and every other cell is as before. -/
theorem slotWriteBlock_read {cfg : Config} {i : Nat} (b : Block) {j : Nat} {m m' : Memory}
    (h : slotWriteBlock cfg m i j b = .ok m') :
    (∀ k, k < b.length → m'.read (slotCell cfg i (j + k)) = b[k]?) ∧
    (∀ a, (∀ k, k < b.length → a ≠ slotCell cfg i (j + k)) → m'.read a = m.read a) := by
  induction b generalizing j m with
  | nil => cases h; simp
  | cons p b ih =>
    simp only [slotWriteBlock] at h
    split at h
    · cases h
    · rename_i m1 hm1
      obtain ⟨hin, hout⟩ := ih h
      obtain ⟨_, rfl⟩ := slotWrite_eq_ok hm1
      constructor
      · intro k hk
        cases k with
        | zero =>
          have hne : ∀ k, k < b.length → slotCell cfg i j ≠ slotCell cfg i (j + 1 + k) := by
            intro k _
            simp only [slotCell]
            omega
          simpa using (hout (slotCell cfg i j) hne).trans (Memory.read_write_same m _ p)
        | succ k =>
          have := hin k (by simpa using hk)
          rw [show j + 1 + k = j + (k + 1) by omega] at this
          simpa using this
      · intro a ha
        have h0 := ha 0 (by simp)
        have hrest : ∀ k, k < b.length → a ≠ slotCell cfg i (j + 1 + k) := by
          intro k hk
          have := ha (k + 1) (by simpa using hk)
          rwa [show j + 1 + k = j + (k + 1) by omega]
        rw [hout a hrest]
        exact Memory.read_write_other m _ a p (by simpa using h0)

/-- A block write whose cells all lie in the space succeeds. -/
theorem slotWriteBlock_isOk {cfg : Config} {i : Nat} (b : Block) {j : Nat} (m : Memory)
    (h : ∀ k, k < b.length → inSlotSpace cfg (slotCell cfg i (j + k))) :
    ∃ m', slotWriteBlock cfg m i j b = .ok m' := by
  induction b generalizing j m with
  | nil => exact ⟨m, rfl⟩
  | cons p b ih =>
    have h0 : inSlotSpace cfg (slotCell cfg i j) := by simpa using h 0 (by simp)
    simp only [slotWriteBlock, slotWrite_of_inSlotSpace m p h0]
    apply ih
    intro k hk
    have := h (k + 1) (by simpa using hk)
    rwa [show j + 1 + k = j + (k + 1) by omega]

/-- A block read of written cells in the space gives what they hold. -/
theorem slotReadBlock_of_read {cfg : Config} {m : Memory} {i : Nat} (b : Block) {j : Nat}
    (hs : ∀ k, k < b.length → inSlotSpace cfg (slotCell cfg i (j + k)))
    (hr : ∀ k, k < b.length → m.read (slotCell cfg i (j + k)) = b[k]?) :
    slotReadBlock cfg m i j b.length = .ok b := by
  induction b generalizing j with
  | nil => rfl
  | cons p b ih =>
    have h0 : slotRead cfg m i j = .ok p :=
      slotRead_of_read (by simpa using hs 0 (by simp)) (by simpa using hr 0 (by simp))
    have hrest : slotReadBlock cfg m i (j + 1) b.length = .ok b := by
      apply ih
      · intro k hk
        have := hs (k + 1) (by simpa using hk)
        rwa [show j + 1 + k = j + (k + 1) by omega]
      · intro k hk
        have := hr (k + 1) (by simpa using hk)
        rw [show j + 1 + k = j + (k + 1) by omega]
        simpa using this
    simp [slotReadBlock, h0, hrest]

/-- A block read, when it succeeds: it gives `n` pairs, each what its cell holds. -/
theorem slotReadBlock_eq_ok {cfg : Config} {m : Memory} {i : Nat} (n : Nat) {j : Nat} {b : Block}
    (h : slotReadBlock cfg m i j n = .ok b) :
    b.length = n ∧ ∀ k, k < n → some (m.value (slotCell cfg i (j + k))) = b[k]? := by
  induction n generalizing j b with
  | zero => cases h; simp
  | succ n ih =>
    simp only [slotReadBlock] at h
    split at h
    · cases h
    · rename_i p hp
      split at h
      · cases h
      · rename_i b' hb'
        cases h
        obtain ⟨hl, hk⟩ := ih hb'
        refine ⟨by simp [hl], ?_⟩
        intro k hkn
        cases k with
        | zero => simpa using (slotRead_eq_ok hp).2
        | succ k =>
          have := hk k (by omega)
          rw [show j + 1 + k = j + (k + 1) by omega] at this
          simpa using this

end Sys2Proof.Machine
end

