-- ==== Sys2Proof/Laws/State.lean ====
section
/-! SUPPORT. One lemma per field per update of the state, so that no later proof unfolds a record update. -/

namespace Sys2Proof.Machine

/-! Ports. -/

@[simp] theorem State.setPort_port_same (s : State) (x : Port) (v : PortState) : (s.setPort x v).port x = v := by
  cases x <;> rfl

@[simp] theorem State.setPort_port_other (s : State) {x y : Port} (v : PortState) (h : y ≠ x) :
    (s.setPort x v).port y = s.port y := by
  cases x <;> cases y <;> first | rfl | exact absurd rfl h

@[simp] theorem State.setPort_self (s : State) (x : Port) : s.setPort x (s.port x) = s := by cases x <;> rfl

@[simp] theorem State.setPort_setPort (s : State) (x : Port) (v v' : PortState) :
    (s.setPort x v).setPort x v' = s.setPort x v' := by
  cases x <;> rfl

@[simp] theorem PortState.respond_input (v : PortState) (r : Reply) : (v.respond r).input = v.input := rfl

@[simp] theorem PortState.respond_flight (v : PortState) (r : Reply) : (v.respond r).flight = v.flight := rfl

@[simp] theorem PortState.respond_output (v : PortState) (r : Reply) : (v.respond r).output = v.output ++ r.words := rfl

/-! Replacing a port, responding, consuming input, ending an operation in flight: nothing but ports. -/

@[simp] theorem State.setPort_cfg (s : State) (x : Port) (v : PortState) : (s.setPort x v).cfg = s.cfg := by cases x <;> rfl

@[simp] theorem State.setPort_life (s : State) (x : Port) (v : PortState) : (s.setPort x v).life = s.life := by cases x <;> rfl

@[simp] theorem State.setPort_fmt (s : State) (x : Port) (v : PortState) : (s.setPort x v).fmt = s.fmt := by cases x <;> rfl

@[simp] theorem State.setPort_fv (s : State) (x : Port) (v : PortState) : (s.setPort x v).fv = s.fv := by cases x <;> rfl

@[simp] theorem State.setPort_os (s : State) (x : Port) (v : PortState) : (s.setPort x v).os = s.os := by cases x <;> rfl

@[simp] theorem State.setPort_ds (s : State) (x : Port) (v : PortState) : (s.setPort x v).ds = s.ds := by cases x <;> rfl

@[simp] theorem State.setPort_q (s : State) (x : Port) (v : PortState) : (s.setPort x v).q = s.q := by cases x <;> rfl

@[simp] theorem State.setPort_mute (s : State) (x : Port) (v : PortState) : (s.setPort x v).mute = s.mute := by cases x <;> rfl

@[simp] theorem State.setPort_family (s : State) (x : Port) (v : PortState) : (s.setPort x v).family = s.family := by cases x <;> rfl

@[simp] theorem State.setPort_dsResetReq (s : State) (x : Port) (v : PortState) : (s.setPort x v).dsResetReq = s.dsResetReq := by cases x <;> rfl

@[simp] theorem State.setPort_fb (s : State) (x : Port) (v : PortState) : (s.setPort x v).fb = s.fb := by cases x <;> rfl

@[simp] theorem State.setPort_issuer (s : State) (x : Port) (v : PortState) : (s.setPort x v).issuer = s.issuer := by cases x <;> rfl

@[simp] theorem State.setPort_sched (s : State) (x : Port) (v : PortState) : (s.setPort x v).sched = s.sched := by cases x <;> rfl

@[simp] theorem State.setPort_emitted (s : State) (x : Port) (v : PortState) : (s.setPort x v).emitted = s.emitted := by cases x <;> rfl

@[simp] theorem State.setPort_freeCount (s : State) (x : Port) (v : PortState) : (s.setPort x v).freeCount = s.freeCount := by cases x <;> rfl

@[simp] theorem State.respond_cfg (s : State) (r : Reply) : (s.respond r).cfg = s.cfg := by
  simp [State.respond]

@[simp] theorem State.respond_life (s : State) (r : Reply) : (s.respond r).life = s.life := by
  simp [State.respond]

@[simp] theorem State.respond_fmt (s : State) (r : Reply) : (s.respond r).fmt = s.fmt := by
  simp [State.respond]

@[simp] theorem State.respond_fv (s : State) (r : Reply) : (s.respond r).fv = s.fv := by
  simp [State.respond]

@[simp] theorem State.respond_os (s : State) (r : Reply) : (s.respond r).os = s.os := by
  simp [State.respond]

@[simp] theorem State.respond_ds (s : State) (r : Reply) : (s.respond r).ds = s.ds := by
  simp [State.respond]

@[simp] theorem State.respond_q (s : State) (r : Reply) : (s.respond r).q = s.q := by
  simp [State.respond]

@[simp] theorem State.respond_mute (s : State) (r : Reply) : (s.respond r).mute = s.mute := by
  simp [State.respond]

@[simp] theorem State.respond_family (s : State) (r : Reply) : (s.respond r).family = s.family := by
  simp [State.respond]

@[simp] theorem State.respond_dsResetReq (s : State) (r : Reply) : (s.respond r).dsResetReq = s.dsResetReq := by
  simp [State.respond]

@[simp] theorem State.respond_fb (s : State) (r : Reply) : (s.respond r).fb = s.fb := by
  simp [State.respond]

@[simp] theorem State.respond_issuer (s : State) (r : Reply) : (s.respond r).issuer = s.issuer := by
  simp [State.respond]

@[simp] theorem State.respond_sched (s : State) (r : Reply) : (s.respond r).sched = s.sched := by
  simp [State.respond]

@[simp] theorem State.respond_emitted (s : State) (r : Reply) : (s.respond r).emitted = s.emitted := by
  simp [State.respond]

@[simp] theorem State.respond_freeCount (s : State) (r : Reply) : (s.respond r).freeCount = s.freeCount := by
  simp [State.respond]

@[simp] theorem State.consume_cfg (s : State) (ws : List Word) : (s.consume ws).cfg = s.cfg := by
  simp [State.consume]

@[simp] theorem State.consume_life (s : State) (ws : List Word) : (s.consume ws).life = s.life := by
  simp [State.consume]

@[simp] theorem State.consume_fmt (s : State) (ws : List Word) : (s.consume ws).fmt = s.fmt := by
  simp [State.consume]

@[simp] theorem State.consume_fv (s : State) (ws : List Word) : (s.consume ws).fv = s.fv := by
  simp [State.consume]

@[simp] theorem State.consume_os (s : State) (ws : List Word) : (s.consume ws).os = s.os := by
  simp [State.consume]

@[simp] theorem State.consume_ds (s : State) (ws : List Word) : (s.consume ws).ds = s.ds := by
  simp [State.consume]

@[simp] theorem State.consume_q (s : State) (ws : List Word) : (s.consume ws).q = s.q := by
  simp [State.consume]

@[simp] theorem State.consume_mute (s : State) (ws : List Word) : (s.consume ws).mute = s.mute := by
  simp [State.consume]

@[simp] theorem State.consume_family (s : State) (ws : List Word) : (s.consume ws).family = s.family := by
  simp [State.consume]

@[simp] theorem State.consume_dsResetReq (s : State) (ws : List Word) : (s.consume ws).dsResetReq = s.dsResetReq := by
  simp [State.consume]

@[simp] theorem State.consume_fb (s : State) (ws : List Word) : (s.consume ws).fb = s.fb := by
  simp [State.consume]

@[simp] theorem State.consume_issuer (s : State) (ws : List Word) : (s.consume ws).issuer = s.issuer := by
  simp [State.consume]

@[simp] theorem State.consume_sched (s : State) (ws : List Word) : (s.consume ws).sched = s.sched := by
  simp [State.consume]

@[simp] theorem State.consume_emitted (s : State) (ws : List Word) : (s.consume ws).emitted = s.emitted := by
  simp [State.consume]

@[simp] theorem State.consume_freeCount (s : State) (ws : List Word) : (s.consume ws).freeCount = s.freeCount := by
  simp [State.consume]

@[simp] theorem State.land_cfg (s : State) : (s.land).cfg = s.cfg := by
  simp [State.land]

@[simp] theorem State.land_life (s : State) : (s.land).life = s.life := by
  simp [State.land]

@[simp] theorem State.land_fmt (s : State) : (s.land).fmt = s.fmt := by
  simp [State.land]

@[simp] theorem State.land_fv (s : State) : (s.land).fv = s.fv := by
  simp [State.land]

@[simp] theorem State.land_os (s : State) : (s.land).os = s.os := by
  simp [State.land]

@[simp] theorem State.land_ds (s : State) : (s.land).ds = s.ds := by
  simp [State.land]

@[simp] theorem State.land_q (s : State) : (s.land).q = s.q := by
  simp [State.land]

@[simp] theorem State.land_mute (s : State) : (s.land).mute = s.mute := by
  simp [State.land]

@[simp] theorem State.land_family (s : State) : (s.land).family = s.family := by
  simp [State.land]

@[simp] theorem State.land_dsResetReq (s : State) : (s.land).dsResetReq = s.dsResetReq := by
  simp [State.land]

@[simp] theorem State.land_fb (s : State) : (s.land).fb = s.fb := by
  simp [State.land]

@[simp] theorem State.land_issuer (s : State) : (s.land).issuer = s.issuer := by
  simp [State.land]

@[simp] theorem State.land_sched (s : State) : (s.land).sched = s.sched := by
  simp [State.land]

@[simp] theorem State.land_emitted (s : State) : (s.land).emitted = s.emitted := by
  simp [State.land]

@[simp] theorem State.land_freeCount (s : State) : (s.land).freeCount = s.freeCount := by
  simp [State.land]

@[simp] theorem State.respond_port_issuer (s : State) (r : Reply) :
    (s.respond r).port s.issuer = (s.port s.issuer).respond r := by
  simp [State.respond]

@[simp] theorem State.respond_port_other (s : State) (r : Reply) {x : Port} (h : x ≠ s.issuer) :
    (s.respond r).port x = s.port x := by
  simp [State.respond, h]

@[simp] theorem State.land_port_issuer (s : State) :
    s.land.port s.issuer = { s.port s.issuer with flight := none } := by
  simp [State.land]

@[simp] theorem State.land_port_other (s : State) {x : Port} (h : x ≠ s.issuer) : s.land.port x = s.port x := by
  simp [State.land, h]

@[simp] theorem State.consume_port_issuer (s : State) (ws : List Word) :
    (s.consume ws).port s.issuer = { s.port s.issuer with input := ws } := by
  simp [State.consume]

@[simp] theorem State.consume_port_other (s : State) (ws : List Word) {x : Port} (h : x ≠ s.issuer) :
    (s.consume ws).port x = s.port x := by
  simp [State.consume, h]

/-! `takeUpdated`. -/

@[simp] theorem takeUpdated_cfg (s : State) : (takeUpdated s).cfg = s.cfg := rfl

@[simp] theorem takeUpdated_life (s : State) : (takeUpdated s).life = s.life := rfl

@[simp] theorem takeUpdated_fmt (s : State) : (takeUpdated s).fmt = s.fmt := rfl

@[simp] theorem takeUpdated_fv (s : State) : (takeUpdated s).fv = { s.fv with updated := false } := rfl

@[simp] theorem takeUpdated_os (s : State) : (takeUpdated s).os = s.os := rfl

@[simp] theorem takeUpdated_ds (s : State) : (takeUpdated s).ds = s.ds := rfl

@[simp] theorem takeUpdated_q (s : State) : (takeUpdated s).q = s.q := rfl

@[simp] theorem takeUpdated_mute (s : State) : (takeUpdated s).mute = s.mute := rfl

@[simp] theorem takeUpdated_family (s : State) : (takeUpdated s).family = s.family := rfl

@[simp] theorem takeUpdated_dsResetReq (s : State) : (takeUpdated s).dsResetReq = s.dsResetReq := rfl

@[simp] theorem takeUpdated_fb (s : State) : (takeUpdated s).fb = s.fb := rfl

@[simp] theorem takeUpdated_portP (s : State) : (takeUpdated s).portP = s.portP := rfl

@[simp] theorem takeUpdated_portC (s : State) : (takeUpdated s).portC = s.portC := rfl

@[simp] theorem takeUpdated_portT (s : State) : (takeUpdated s).portT = s.portT := rfl

@[simp] theorem takeUpdated_issuer (s : State) : (takeUpdated s).issuer = s.issuer := rfl

@[simp] theorem takeUpdated_sched (s : State) : (takeUpdated s).sched = s.sched := rfl

@[simp] theorem takeUpdated_emitted (s : State) : (takeUpdated s).emitted = s.emitted := rfl

@[simp] theorem takeUpdated_freeCount (s : State) : (takeUpdated s).freeCount = s.freeCount := rfl

/-! `declareGood`. -/

@[simp] theorem declareGood_cfg (r : Rate) (d : Depth) (s : State) : (declareGood r d s).cfg = s.cfg := rfl

@[simp] theorem declareGood_life (r : Rate) (d : Depth) (s : State) : (declareGood r d s).life = s.life := rfl

@[simp] theorem declareGood_fmt (r : Rate) (d : Depth) (s : State) :
    (declareGood r d s).fmt =
      { rate := some r, depth := some d, valid := true } := rfl

@[simp] theorem declareGood_os (r : Rate) (d : Depth) (s : State) : (declareGood r d s).os = s.os := rfl

@[simp] theorem declareGood_ds (r : Rate) (d : Depth) (s : State) : (declareGood r d s).ds = s.ds := rfl

@[simp] theorem declareGood_q (r : Rate) (d : Depth) (s : State) : (declareGood r d s).q = s.q := rfl

@[simp] theorem declareGood_mute (r : Rate) (d : Depth) (s : State) : (declareGood r d s).mute = s.mute := rfl

@[simp] theorem declareGood_family (r : Rate) (d : Depth) (s : State) : (declareGood r d s).family = s.family := rfl

@[simp] theorem declareGood_dsResetReq (r : Rate) (d : Depth) (s : State) : (declareGood r d s).dsResetReq = s.dsResetReq := rfl

@[simp] theorem declareGood_fb (r : Rate) (d : Depth) (s : State) : (declareGood r d s).fb = s.fb := rfl

@[simp] theorem declareGood_portP (r : Rate) (d : Depth) (s : State) : (declareGood r d s).portP = s.portP := rfl

@[simp] theorem declareGood_portC (r : Rate) (d : Depth) (s : State) : (declareGood r d s).portC = s.portC := rfl

@[simp] theorem declareGood_portT (r : Rate) (d : Depth) (s : State) : (declareGood r d s).portT = s.portT := rfl

@[simp] theorem declareGood_issuer (r : Rate) (d : Depth) (s : State) : (declareGood r d s).issuer = s.issuer := rfl

@[simp] theorem declareGood_sched (r : Rate) (d : Depth) (s : State) : (declareGood r d s).sched = s.sched := rfl

@[simp] theorem declareGood_emitted (r : Rate) (d : Depth) (s : State) : (declareGood r d s).emitted = s.emitted := rfl

@[simp] theorem declareGood_freeCount (r : Rate) (d : Depth) (s : State) : (declareGood r d s).freeCount = s.freeCount := rfl

/-! `declareBad`. -/

@[simp] theorem declareBad_cfg (s : State) : (declareBad s).cfg = s.cfg := rfl

@[simp] theorem declareBad_life (s : State) : (declareBad s).life = s.life := rfl

@[simp] theorem declareBad_fmt (s : State) : (declareBad s).fmt = { s.fmt with valid := false } := rfl

@[simp] theorem declareBad_fv (s : State) :
    (declareBad s).fv =
      { s.fv with prevRate := none, prevDepth := none } := rfl

@[simp] theorem declareBad_os (s : State) : (declareBad s).os = s.os := rfl

@[simp] theorem declareBad_ds (s : State) : (declareBad s).ds = s.ds := rfl

@[simp] theorem declareBad_q (s : State) : (declareBad s).q = s.q := rfl

@[simp] theorem declareBad_mute (s : State) : (declareBad s).mute = s.mute := rfl

@[simp] theorem declareBad_family (s : State) : (declareBad s).family = s.family := rfl

@[simp] theorem declareBad_dsResetReq (s : State) : (declareBad s).dsResetReq = s.dsResetReq := rfl

@[simp] theorem declareBad_fb (s : State) : (declareBad s).fb = s.fb := rfl

@[simp] theorem declareBad_portP (s : State) : (declareBad s).portP = s.portP := rfl

@[simp] theorem declareBad_portC (s : State) : (declareBad s).portC = s.portC := rfl

@[simp] theorem declareBad_portT (s : State) : (declareBad s).portT = s.portT := rfl

@[simp] theorem declareBad_issuer (s : State) : (declareBad s).issuer = s.issuer := rfl

@[simp] theorem declareBad_sched (s : State) : (declareBad s).sched = s.sched := rfl

@[simp] theorem declareBad_emitted (s : State) : (declareBad s).emitted = s.emitted := rfl

@[simp] theorem declareBad_freeCount (s : State) : (declareBad s).freeCount = s.freeCount := rfl

/-! `zeroStage`. -/

@[simp] theorem zeroStage_cfg (st : Stage) (s : State) : (zeroStage st s).cfg = s.cfg := rfl

@[simp] theorem zeroStage_life (st : Stage) (s : State) : (zeroStage st s).life = s.life := rfl

@[simp] theorem zeroStage_fmt (st : Stage) (s : State) : (zeroStage st s).fmt = s.fmt := rfl

@[simp] theorem zeroStage_fv (st : Stage) (s : State) : (zeroStage st s).fv = s.fv := rfl

@[simp] theorem zeroStage_os (st : Stage) (s : State) :
    (zeroStage st s).os =
      s.os.set st (FilterState.zero (s.cfg.lineLength st)) := rfl

@[simp] theorem zeroStage_ds (st : Stage) (s : State) : (zeroStage st s).ds = s.ds := rfl

@[simp] theorem zeroStage_q (st : Stage) (s : State) : (zeroStage st s).q = s.q := rfl

@[simp] theorem zeroStage_mute (st : Stage) (s : State) : (zeroStage st s).mute = s.mute := rfl

@[simp] theorem zeroStage_family (st : Stage) (s : State) : (zeroStage st s).family = s.family := rfl

@[simp] theorem zeroStage_dsResetReq (st : Stage) (s : State) : (zeroStage st s).dsResetReq = s.dsResetReq := rfl

@[simp] theorem zeroStage_fb (st : Stage) (s : State) : (zeroStage st s).fb = s.fb := rfl

@[simp] theorem zeroStage_portP (st : Stage) (s : State) : (zeroStage st s).portP = s.portP := rfl

@[simp] theorem zeroStage_portC (st : Stage) (s : State) : (zeroStage st s).portC = s.portC := rfl

@[simp] theorem zeroStage_portT (st : Stage) (s : State) : (zeroStage st s).portT = s.portT := rfl

@[simp] theorem zeroStage_issuer (st : Stage) (s : State) : (zeroStage st s).issuer = s.issuer := rfl

@[simp] theorem zeroStage_sched (st : Stage) (s : State) : (zeroStage st s).sched = s.sched := rfl

@[simp] theorem zeroStage_emitted (st : Stage) (s : State) : (zeroStage st s).emitted = s.emitted := rfl

@[simp] theorem zeroStage_freeCount (st : Stage) (s : State) : (zeroStage st s).freeCount = s.freeCount := rfl

/-! `zeroCascade`. -/

@[simp] theorem zeroCascade_cfg (s : State) : (zeroCascade s).cfg = s.cfg := rfl

@[simp] theorem zeroCascade_life (s : State) : (zeroCascade s).life = s.life := rfl

@[simp] theorem zeroCascade_fmt (s : State) : (zeroCascade s).fmt = s.fmt := rfl

@[simp] theorem zeroCascade_fv (s : State) : (zeroCascade s).fv = s.fv := rfl

@[simp] theorem zeroCascade_os (s : State) : (zeroCascade s).os = cascadeZero s.cfg := rfl

@[simp] theorem zeroCascade_ds (s : State) : (zeroCascade s).ds = s.ds := rfl

@[simp] theorem zeroCascade_q (s : State) : (zeroCascade s).q = s.q := rfl

@[simp] theorem zeroCascade_mute (s : State) : (zeroCascade s).mute = s.mute := rfl

@[simp] theorem zeroCascade_family (s : State) : (zeroCascade s).family = s.family := rfl

@[simp] theorem zeroCascade_dsResetReq (s : State) : (zeroCascade s).dsResetReq = s.dsResetReq := rfl

@[simp] theorem zeroCascade_fb (s : State) : (zeroCascade s).fb = s.fb := rfl

@[simp] theorem zeroCascade_portP (s : State) : (zeroCascade s).portP = s.portP := rfl

@[simp] theorem zeroCascade_portC (s : State) : (zeroCascade s).portC = s.portC := rfl

@[simp] theorem zeroCascade_portT (s : State) : (zeroCascade s).portT = s.portT := rfl

@[simp] theorem zeroCascade_issuer (s : State) : (zeroCascade s).issuer = s.issuer := rfl

@[simp] theorem zeroCascade_sched (s : State) : (zeroCascade s).sched = s.sched := rfl

@[simp] theorem zeroCascade_emitted (s : State) : (zeroCascade s).emitted = s.emitted := rfl

@[simp] theorem zeroCascade_freeCount (s : State) : (zeroCascade s).freeCount = s.freeCount := rfl

/-! `runStage`. -/

@[simp] theorem runStage_cfg (st : Stage) (b : Block) (s : State) : ((runStage st b s).1).cfg = s.cfg := rfl

@[simp] theorem runStage_life (st : Stage) (b : Block) (s : State) : ((runStage st b s).1).life = s.life := rfl

@[simp] theorem runStage_fmt (st : Stage) (b : Block) (s : State) : ((runStage st b s).1).fmt = s.fmt := rfl

@[simp] theorem runStage_fv (st : Stage) (b : Block) (s : State) : ((runStage st b s).1).fv = s.fv := rfl

@[simp] theorem runStage_os (st : Stage) (b : Block) (s : State) :
    ((runStage st b s).1).os =
      s.os.set st (stageBlock s.cfg.clampBound (s.cfg.stage.get st) (s.os.get st) b).1 := rfl

@[simp] theorem runStage_ds (st : Stage) (b : Block) (s : State) : ((runStage st b s).1).ds = s.ds := rfl

@[simp] theorem runStage_q (st : Stage) (b : Block) (s : State) : ((runStage st b s).1).q = s.q := rfl

@[simp] theorem runStage_mute (st : Stage) (b : Block) (s : State) : ((runStage st b s).1).mute = s.mute := rfl

@[simp] theorem runStage_family (st : Stage) (b : Block) (s : State) : ((runStage st b s).1).family = s.family := rfl

@[simp] theorem runStage_dsResetReq (st : Stage) (b : Block) (s : State) : ((runStage st b s).1).dsResetReq = s.dsResetReq := rfl

@[simp] theorem runStage_fb (st : Stage) (b : Block) (s : State) : ((runStage st b s).1).fb = s.fb := rfl

@[simp] theorem runStage_portP (st : Stage) (b : Block) (s : State) : ((runStage st b s).1).portP = s.portP := rfl

@[simp] theorem runStage_portC (st : Stage) (b : Block) (s : State) : ((runStage st b s).1).portC = s.portC := rfl

@[simp] theorem runStage_portT (st : Stage) (b : Block) (s : State) : ((runStage st b s).1).portT = s.portT := rfl

@[simp] theorem runStage_issuer (st : Stage) (b : Block) (s : State) : ((runStage st b s).1).issuer = s.issuer := rfl

@[simp] theorem runStage_sched (st : Stage) (b : Block) (s : State) : ((runStage st b s).1).sched = s.sched := rfl

@[simp] theorem runStage_emitted (st : Stage) (b : Block) (s : State) : ((runStage st b s).1).emitted = s.emitted := rfl

@[simp] theorem runStage_freeCount (st : Stage) (b : Block) (s : State) : ((runStage st b s).1).freeCount = s.freeCount := rfl

/-! `runCascade`. -/

@[simp] theorem runCascade_cfg (r : Rate) (b : Block) (s : State) : ((runCascade r b s).1).cfg = s.cfg := rfl

@[simp] theorem runCascade_life (r : Rate) (b : Block) (s : State) : ((runCascade r b s).1).life = s.life := rfl

@[simp] theorem runCascade_fmt (r : Rate) (b : Block) (s : State) : ((runCascade r b s).1).fmt = s.fmt := rfl

@[simp] theorem runCascade_fv (r : Rate) (b : Block) (s : State) : ((runCascade r b s).1).fv = s.fv := rfl

@[simp] theorem runCascade_os (r : Rate) (b : Block) (s : State) :
    ((runCascade r b s).1).os =
      (cascadeBlock s.cfg s.os (Stage.firstStages r.stages) b).1 := rfl

@[simp] theorem runCascade_ds (r : Rate) (b : Block) (s : State) : ((runCascade r b s).1).ds = s.ds := rfl

@[simp] theorem runCascade_q (r : Rate) (b : Block) (s : State) : ((runCascade r b s).1).q = s.q := rfl

@[simp] theorem runCascade_mute (r : Rate) (b : Block) (s : State) : ((runCascade r b s).1).mute = s.mute := rfl

@[simp] theorem runCascade_family (r : Rate) (b : Block) (s : State) : ((runCascade r b s).1).family = s.family := rfl

@[simp] theorem runCascade_dsResetReq (r : Rate) (b : Block) (s : State) : ((runCascade r b s).1).dsResetReq = s.dsResetReq := rfl

@[simp] theorem runCascade_fb (r : Rate) (b : Block) (s : State) : ((runCascade r b s).1).fb = s.fb := rfl

@[simp] theorem runCascade_portP (r : Rate) (b : Block) (s : State) : ((runCascade r b s).1).portP = s.portP := rfl

@[simp] theorem runCascade_portC (r : Rate) (b : Block) (s : State) : ((runCascade r b s).1).portC = s.portC := rfl

@[simp] theorem runCascade_portT (r : Rate) (b : Block) (s : State) : ((runCascade r b s).1).portT = s.portT := rfl

@[simp] theorem runCascade_issuer (r : Rate) (b : Block) (s : State) : ((runCascade r b s).1).issuer = s.issuer := rfl

@[simp] theorem runCascade_sched (r : Rate) (b : Block) (s : State) : ((runCascade r b s).1).sched = s.sched := rfl

@[simp] theorem runCascade_emitted (r : Rate) (b : Block) (s : State) : ((runCascade r b s).1).emitted = s.emitted := rfl

@[simp] theorem runCascade_freeCount (r : Rate) (b : Block) (s : State) : ((runCascade r b s).1).freeCount = s.freeCount := rfl

/-! `writeHeader`. -/

@[simp] theorem writeHeader_cfg (g : Family) (n : Nat) (s : State) : (writeHeader g n s).cfg = s.cfg := rfl

@[simp] theorem writeHeader_life (g : Family) (n : Nat) (s : State) : (writeHeader g n s).life = s.life := rfl

@[simp] theorem writeHeader_fmt (g : Family) (n : Nat) (s : State) : (writeHeader g n s).fmt = s.fmt := rfl

@[simp] theorem writeHeader_fv (g : Family) (n : Nat) (s : State) : (writeHeader g n s).fv = s.fv := rfl

@[simp] theorem writeHeader_os (g : Family) (n : Nat) (s : State) : (writeHeader g n s).os = s.os := rfl

@[simp] theorem writeHeader_ds (g : Family) (n : Nat) (s : State) : (writeHeader g n s).ds = s.ds := rfl

@[simp] theorem writeHeader_q (g : Family) (n : Nat) (s : State) :
    (writeHeader g n s).q =
      { s.q with hdr := s.q.hdr.set s.q.wc ⟨n, g⟩ } := rfl

@[simp] theorem writeHeader_mute (g : Family) (n : Nat) (s : State) : (writeHeader g n s).mute = s.mute := rfl

@[simp] theorem writeHeader_family (g : Family) (n : Nat) (s : State) : (writeHeader g n s).family = s.family := rfl

@[simp] theorem writeHeader_dsResetReq (g : Family) (n : Nat) (s : State) : (writeHeader g n s).dsResetReq = s.dsResetReq := rfl

@[simp] theorem writeHeader_fb (g : Family) (n : Nat) (s : State) : (writeHeader g n s).fb = s.fb := rfl

@[simp] theorem writeHeader_portP (g : Family) (n : Nat) (s : State) : (writeHeader g n s).portP = s.portP := rfl

@[simp] theorem writeHeader_portC (g : Family) (n : Nat) (s : State) : (writeHeader g n s).portC = s.portC := rfl

@[simp] theorem writeHeader_portT (g : Family) (n : Nat) (s : State) : (writeHeader g n s).portT = s.portT := rfl

@[simp] theorem writeHeader_issuer (g : Family) (n : Nat) (s : State) : (writeHeader g n s).issuer = s.issuer := rfl

@[simp] theorem writeHeader_sched (g : Family) (n : Nat) (s : State) : (writeHeader g n s).sched = s.sched := rfl

@[simp] theorem writeHeader_emitted (g : Family) (n : Nat) (s : State) : (writeHeader g n s).emitted = s.emitted := rfl

@[simp] theorem writeHeader_freeCount (g : Family) (n : Nat) (s : State) : (writeHeader g n s).freeCount = s.freeCount := rfl

/-! `commitEnqueue`. -/

@[simp] theorem commitEnqueue_cfg (n : Nat) (s : State) : (commitEnqueue n s).cfg = s.cfg := rfl

@[simp] theorem commitEnqueue_life (n : Nat) (s : State) : (commitEnqueue n s).life = s.life := rfl

@[simp] theorem commitEnqueue_fmt (n : Nat) (s : State) : (commitEnqueue n s).fmt = s.fmt := rfl

@[simp] theorem commitEnqueue_fv (n : Nat) (s : State) : (commitEnqueue n s).fv = s.fv := rfl

@[simp] theorem commitEnqueue_os (n : Nat) (s : State) : (commitEnqueue n s).os = s.os := rfl

@[simp] theorem commitEnqueue_ds (n : Nat) (s : State) : (commitEnqueue n s).ds = s.ds := rfl

@[simp] theorem commitEnqueue_q (n : Nat) (s : State) :
    (commitEnqueue n s).q =
      { s.q with wc := (s.q.wc + 1) % s.cfg.nSlots, occ := s.q.occ + 1, total := s.q.total + n } := rfl

@[simp] theorem commitEnqueue_mute (n : Nat) (s : State) : (commitEnqueue n s).mute = s.mute := rfl

@[simp] theorem commitEnqueue_family (n : Nat) (s : State) : (commitEnqueue n s).family = s.family := rfl

@[simp] theorem commitEnqueue_dsResetReq (n : Nat) (s : State) : (commitEnqueue n s).dsResetReq = s.dsResetReq := rfl

@[simp] theorem commitEnqueue_fb (n : Nat) (s : State) : (commitEnqueue n s).fb = s.fb := rfl

@[simp] theorem commitEnqueue_portP (n : Nat) (s : State) : (commitEnqueue n s).portP = s.portP := rfl

@[simp] theorem commitEnqueue_portC (n : Nat) (s : State) : (commitEnqueue n s).portC = s.portC := rfl

@[simp] theorem commitEnqueue_portT (n : Nat) (s : State) : (commitEnqueue n s).portT = s.portT := rfl

@[simp] theorem commitEnqueue_issuer (n : Nat) (s : State) : (commitEnqueue n s).issuer = s.issuer := rfl

@[simp] theorem commitEnqueue_sched (n : Nat) (s : State) : (commitEnqueue n s).sched = s.sched := rfl

@[simp] theorem commitEnqueue_emitted (n : Nat) (s : State) : (commitEnqueue n s).emitted = s.emitted := rfl

@[simp] theorem commitEnqueue_freeCount (n : Nat) (s : State) : (commitEnqueue n s).freeCount = s.freeCount := rfl

/-! `commitDequeue`. -/

@[simp] theorem commitDequeue_cfg (n : Nat) (s : State) : (commitDequeue n s).cfg = s.cfg := rfl

@[simp] theorem commitDequeue_life (n : Nat) (s : State) : (commitDequeue n s).life = s.life := rfl

@[simp] theorem commitDequeue_fmt (n : Nat) (s : State) : (commitDequeue n s).fmt = s.fmt := rfl

@[simp] theorem commitDequeue_fv (n : Nat) (s : State) : (commitDequeue n s).fv = s.fv := rfl

@[simp] theorem commitDequeue_os (n : Nat) (s : State) : (commitDequeue n s).os = s.os := rfl

@[simp] theorem commitDequeue_ds (n : Nat) (s : State) : (commitDequeue n s).ds = s.ds := rfl

@[simp] theorem commitDequeue_q (n : Nat) (s : State) :
    (commitDequeue n s).q =
      { s.q with rc := (s.q.rc + 1) % s.cfg.nSlots, occ := s.q.occ - 1, total := s.q.total - n } := rfl

@[simp] theorem commitDequeue_mute (n : Nat) (s : State) : (commitDequeue n s).mute = s.mute := rfl

@[simp] theorem commitDequeue_family (n : Nat) (s : State) : (commitDequeue n s).family = s.family := rfl

@[simp] theorem commitDequeue_dsResetReq (n : Nat) (s : State) : (commitDequeue n s).dsResetReq = s.dsResetReq := rfl

@[simp] theorem commitDequeue_fb (n : Nat) (s : State) : (commitDequeue n s).fb = s.fb := rfl

@[simp] theorem commitDequeue_portP (n : Nat) (s : State) : (commitDequeue n s).portP = s.portP := rfl

@[simp] theorem commitDequeue_portC (n : Nat) (s : State) : (commitDequeue n s).portC = s.portC := rfl

@[simp] theorem commitDequeue_portT (n : Nat) (s : State) : (commitDequeue n s).portT = s.portT := rfl

@[simp] theorem commitDequeue_issuer (n : Nat) (s : State) : (commitDequeue n s).issuer = s.issuer := rfl

@[simp] theorem commitDequeue_sched (n : Nat) (s : State) : (commitDequeue n s).sched = s.sched := rfl

@[simp] theorem commitDequeue_emitted (n : Nat) (s : State) : (commitDequeue n s).emitted = s.emitted := rfl

@[simp] theorem commitDequeue_freeCount (n : Nat) (s : State) : (commitDequeue n s).freeCount = s.freeCount := rfl

/-! `setFamily`. -/

@[simp] theorem setFamily_cfg (g : Family) (s : State) : (setFamily g s).cfg = s.cfg := rfl

@[simp] theorem setFamily_life (g : Family) (s : State) : (setFamily g s).life = s.life := rfl

@[simp] theorem setFamily_fmt (g : Family) (s : State) : (setFamily g s).fmt = s.fmt := rfl

@[simp] theorem setFamily_fv (g : Family) (s : State) : (setFamily g s).fv = s.fv := rfl

@[simp] theorem setFamily_os (g : Family) (s : State) : (setFamily g s).os = s.os := rfl

@[simp] theorem setFamily_ds (g : Family) (s : State) : (setFamily g s).ds = s.ds := rfl

@[simp] theorem setFamily_q (g : Family) (s : State) : (setFamily g s).q = s.q := rfl

@[simp] theorem setFamily_mute (g : Family) (s : State) : (setFamily g s).mute = s.mute := rfl

@[simp] theorem setFamily_family (g : Family) (s : State) : (setFamily g s).family = g := rfl

@[simp] theorem setFamily_dsResetReq (g : Family) (s : State) : (setFamily g s).dsResetReq = s.dsResetReq := rfl

@[simp] theorem setFamily_fb (g : Family) (s : State) : (setFamily g s).fb = s.fb := rfl

@[simp] theorem setFamily_portP (g : Family) (s : State) : (setFamily g s).portP = s.portP := rfl

@[simp] theorem setFamily_portC (g : Family) (s : State) : (setFamily g s).portC = s.portC := rfl

@[simp] theorem setFamily_portT (g : Family) (s : State) : (setFamily g s).portT = s.portT := rfl

@[simp] theorem setFamily_issuer (g : Family) (s : State) : (setFamily g s).issuer = s.issuer := rfl

@[simp] theorem setFamily_sched (g : Family) (s : State) : (setFamily g s).sched = s.sched := rfl

@[simp] theorem setFamily_emitted (g : Family) (s : State) : (setFamily g s).emitted = s.emitted := rfl

@[simp] theorem setFamily_freeCount (g : Family) (s : State) : (setFamily g s).freeCount = s.freeCount := rfl

/-! `resetQueue`. -/

@[simp] theorem resetQueue_cfg (s : State) : (resetQueue s).cfg = s.cfg := rfl

@[simp] theorem resetQueue_life (s : State) : (resetQueue s).life = s.life := rfl

@[simp] theorem resetQueue_fmt (s : State) : (resetQueue s).fmt = s.fmt := rfl

@[simp] theorem resetQueue_fv (s : State) : (resetQueue s).fv = s.fv := rfl

@[simp] theorem resetQueue_os (s : State) : (resetQueue s).os = s.os := rfl

@[simp] theorem resetQueue_ds (s : State) : (resetQueue s).ds = s.ds := rfl

@[simp] theorem resetQueue_q (s : State) :
    (resetQueue s).q =
      { s.q with wc := 0, rc := 0, occ := 0, total := 0, hdr := s.q.hdr.map (fun _ => ⟨0, .f441⟩) } := rfl

@[simp] theorem resetQueue_mute (s : State) : (resetQueue s).mute = s.mute := rfl

@[simp] theorem resetQueue_family (s : State) : (resetQueue s).family = s.family := rfl

@[simp] theorem resetQueue_dsResetReq (s : State) : (resetQueue s).dsResetReq = s.dsResetReq := rfl

@[simp] theorem resetQueue_fb (s : State) : (resetQueue s).fb = s.fb := rfl

@[simp] theorem resetQueue_portP (s : State) : (resetQueue s).portP = s.portP := rfl

@[simp] theorem resetQueue_portC (s : State) : (resetQueue s).portC = s.portC := rfl

@[simp] theorem resetQueue_portT (s : State) : (resetQueue s).portT = s.portT := rfl

@[simp] theorem resetQueue_issuer (s : State) : (resetQueue s).issuer = s.issuer := rfl

@[simp] theorem resetQueue_sched (s : State) : (resetQueue s).sched = s.sched := rfl

@[simp] theorem resetQueue_emitted (s : State) : (resetQueue s).emitted = s.emitted := rfl

@[simp] theorem resetQueue_freeCount (s : State) : (resetQueue s).freeCount = s.freeCount := rfl

/-! `zeroModulator`. -/

@[simp] theorem zeroModulator_cfg (s : State) : (zeroModulator s).cfg = s.cfg := rfl

@[simp] theorem zeroModulator_life (s : State) : (zeroModulator s).life = s.life := rfl

@[simp] theorem zeroModulator_fmt (s : State) : (zeroModulator s).fmt = s.fmt := rfl

@[simp] theorem zeroModulator_fv (s : State) : (zeroModulator s).fv = s.fv := rfl

@[simp] theorem zeroModulator_os (s : State) : (zeroModulator s).os = s.os := rfl

@[simp] theorem zeroModulator_ds (s : State) : (zeroModulator s).ds = Modulator.zero s.cfg := rfl

@[simp] theorem zeroModulator_q (s : State) : (zeroModulator s).q = s.q := rfl

@[simp] theorem zeroModulator_mute (s : State) : (zeroModulator s).mute = s.mute := rfl

@[simp] theorem zeroModulator_family (s : State) : (zeroModulator s).family = s.family := rfl

@[simp] theorem zeroModulator_dsResetReq (s : State) : (zeroModulator s).dsResetReq = s.dsResetReq := rfl

@[simp] theorem zeroModulator_fb (s : State) : (zeroModulator s).fb = s.fb := rfl

@[simp] theorem zeroModulator_portP (s : State) : (zeroModulator s).portP = s.portP := rfl

@[simp] theorem zeroModulator_portC (s : State) : (zeroModulator s).portC = s.portC := rfl

@[simp] theorem zeroModulator_portT (s : State) : (zeroModulator s).portT = s.portT := rfl

@[simp] theorem zeroModulator_issuer (s : State) : (zeroModulator s).issuer = s.issuer := rfl

@[simp] theorem zeroModulator_sched (s : State) : (zeroModulator s).sched = s.sched := rfl

@[simp] theorem zeroModulator_emitted (s : State) : (zeroModulator s).emitted = s.emitted := rfl

@[simp] theorem zeroModulator_freeCount (s : State) : (zeroModulator s).freeCount = s.freeCount := rfl

/-! `storeChannels`. -/

@[simp] theorem storeChannels_cfg (l r : Channel) (s : State) : (storeChannels l r s).cfg = s.cfg := rfl

@[simp] theorem storeChannels_life (l r : Channel) (s : State) : (storeChannels l r s).life = s.life := rfl

@[simp] theorem storeChannels_fmt (l r : Channel) (s : State) : (storeChannels l r s).fmt = s.fmt := rfl

@[simp] theorem storeChannels_fv (l r : Channel) (s : State) : (storeChannels l r s).fv = s.fv := rfl

@[simp] theorem storeChannels_os (l r : Channel) (s : State) : (storeChannels l r s).os = s.os := rfl

@[simp] theorem storeChannels_ds (l r : Channel) (s : State) : (storeChannels l r s).ds = ⟨l, r, s.ds.lost⟩ := rfl

@[simp] theorem storeChannels_q (l r : Channel) (s : State) : (storeChannels l r s).q = s.q := rfl

@[simp] theorem storeChannels_mute (l r : Channel) (s : State) : (storeChannels l r s).mute = s.mute := rfl

@[simp] theorem storeChannels_family (l r : Channel) (s : State) : (storeChannels l r s).family = s.family := rfl

@[simp] theorem storeChannels_dsResetReq (l r : Channel) (s : State) : (storeChannels l r s).dsResetReq = s.dsResetReq := rfl

@[simp] theorem storeChannels_fb (l r : Channel) (s : State) : (storeChannels l r s).fb = s.fb := rfl

@[simp] theorem storeChannels_portP (l r : Channel) (s : State) : (storeChannels l r s).portP = s.portP := rfl

@[simp] theorem storeChannels_portC (l r : Channel) (s : State) : (storeChannels l r s).portC = s.portC := rfl

@[simp] theorem storeChannels_portT (l r : Channel) (s : State) : (storeChannels l r s).portT = s.portT := rfl

@[simp] theorem storeChannels_issuer (l r : Channel) (s : State) : (storeChannels l r s).issuer = s.issuer := rfl

@[simp] theorem storeChannels_sched (l r : Channel) (s : State) : (storeChannels l r s).sched = s.sched := rfl

@[simp] theorem storeChannels_emitted (l r : Channel) (s : State) : (storeChannels l r s).emitted = s.emitted := rfl

@[simp] theorem storeChannels_freeCount (l r : Channel) (s : State) : (storeChannels l r s).freeCount = s.freeCount := rfl

/-! `loseModulator`. -/

@[simp] theorem loseModulator_cfg (s : State) : (loseModulator s).cfg = s.cfg := rfl

@[simp] theorem loseModulator_life (s : State) : (loseModulator s).life = s.life := rfl

@[simp] theorem loseModulator_fmt (s : State) : (loseModulator s).fmt = s.fmt := rfl

@[simp] theorem loseModulator_fv (s : State) : (loseModulator s).fv = s.fv := rfl

@[simp] theorem loseModulator_os (s : State) : (loseModulator s).os = s.os := rfl

@[simp] theorem loseModulator_ds (s : State) : (loseModulator s).ds = freeModulator s.cfg s.freeCount := rfl

@[simp] theorem loseModulator_q (s : State) : (loseModulator s).q = s.q := rfl

@[simp] theorem loseModulator_mute (s : State) : (loseModulator s).mute = s.mute := rfl

@[simp] theorem loseModulator_family (s : State) : (loseModulator s).family = s.family := rfl

@[simp] theorem loseModulator_dsResetReq (s : State) : (loseModulator s).dsResetReq = s.dsResetReq := rfl

@[simp] theorem loseModulator_fb (s : State) : (loseModulator s).fb = s.fb := rfl

@[simp] theorem loseModulator_portP (s : State) : (loseModulator s).portP = s.portP := rfl

@[simp] theorem loseModulator_portC (s : State) : (loseModulator s).portC = s.portC := rfl

@[simp] theorem loseModulator_portT (s : State) : (loseModulator s).portT = s.portT := rfl

@[simp] theorem loseModulator_issuer (s : State) : (loseModulator s).issuer = s.issuer := rfl

@[simp] theorem loseModulator_sched (s : State) : (loseModulator s).sched = s.sched := rfl

@[simp] theorem loseModulator_emitted (s : State) : (loseModulator s).emitted = s.emitted := rfl

@[simp] theorem loseModulator_freeCount (s : State) : (loseModulator s).freeCount = s.freeCount + 1 := rfl

/-! `seedFeedback`. -/

@[simp] theorem seedFeedback_cfg (r : Rate) (d : Depth) (s : State) : (seedFeedback r d s).cfg = s.cfg := rfl

@[simp] theorem seedFeedback_life (r : Rate) (d : Depth) (s : State) : (seedFeedback r d s).life = s.life := rfl

@[simp] theorem seedFeedback_fmt (r : Rate) (d : Depth) (s : State) : (seedFeedback r d s).fmt = s.fmt := rfl

@[simp] theorem seedFeedback_fv (r : Rate) (d : Depth) (s : State) : (seedFeedback r d s).fv = s.fv := rfl

@[simp] theorem seedFeedback_os (r : Rate) (d : Depth) (s : State) : (seedFeedback r d s).os = s.os := rfl

@[simp] theorem seedFeedback_ds (r : Rate) (d : Depth) (s : State) : (seedFeedback r d s).ds = s.ds := rfl

@[simp] theorem seedFeedback_q (r : Rate) (d : Depth) (s : State) : (seedFeedback r d s).q = s.q := rfl

@[simp] theorem seedFeedback_mute (r : Rate) (d : Depth) (s : State) : (seedFeedback r d s).mute = s.mute := rfl

@[simp] theorem seedFeedback_family (r : Rate) (d : Depth) (s : State) : (seedFeedback r d s).family = s.family := rfl

@[simp] theorem seedFeedback_dsResetReq (r : Rate) (d : Depth) (s : State) : (seedFeedback r d s).dsResetReq = s.dsResetReq := rfl

@[simp] theorem seedFeedback_portP (r : Rate) (d : Depth) (s : State) : (seedFeedback r d s).portP = s.portP := rfl

@[simp] theorem seedFeedback_portC (r : Rate) (d : Depth) (s : State) : (seedFeedback r d s).portC = s.portC := rfl

@[simp] theorem seedFeedback_portT (r : Rate) (d : Depth) (s : State) : (seedFeedback r d s).portT = s.portT := rfl

@[simp] theorem seedFeedback_issuer (r : Rate) (d : Depth) (s : State) : (seedFeedback r d s).issuer = s.issuer := rfl

@[simp] theorem seedFeedback_sched (r : Rate) (d : Depth) (s : State) : (seedFeedback r d s).sched = s.sched := rfl

@[simp] theorem seedFeedback_emitted (r : Rate) (d : Depth) (s : State) : (seedFeedback r d s).emitted = s.emitted := rfl

@[simp] theorem seedFeedback_freeCount (r : Rate) (d : Depth) (s : State) : (seedFeedback r d s).freeCount = s.freeCount := rfl

/-! `askModulatorReset`. -/

@[simp] theorem askModulatorReset_cfg (s : State) : (askModulatorReset s).cfg = s.cfg := rfl

@[simp] theorem askModulatorReset_life (s : State) : (askModulatorReset s).life = s.life := rfl

@[simp] theorem askModulatorReset_fmt (s : State) : (askModulatorReset s).fmt = s.fmt := rfl

@[simp] theorem askModulatorReset_fv (s : State) : (askModulatorReset s).fv = s.fv := rfl

@[simp] theorem askModulatorReset_os (s : State) : (askModulatorReset s).os = s.os := rfl

@[simp] theorem askModulatorReset_ds (s : State) : (askModulatorReset s).ds = s.ds := rfl

@[simp] theorem askModulatorReset_q (s : State) : (askModulatorReset s).q = s.q := rfl

@[simp] theorem askModulatorReset_mute (s : State) : (askModulatorReset s).mute = s.mute := rfl

@[simp] theorem askModulatorReset_family (s : State) : (askModulatorReset s).family = s.family := rfl

@[simp] theorem askModulatorReset_dsResetReq (s : State) : (askModulatorReset s).dsResetReq = true := rfl

@[simp] theorem askModulatorReset_fb (s : State) : (askModulatorReset s).fb = s.fb := rfl

@[simp] theorem askModulatorReset_portP (s : State) : (askModulatorReset s).portP = s.portP := rfl

@[simp] theorem askModulatorReset_portC (s : State) : (askModulatorReset s).portC = s.portC := rfl

@[simp] theorem askModulatorReset_portT (s : State) : (askModulatorReset s).portT = s.portT := rfl

@[simp] theorem askModulatorReset_issuer (s : State) : (askModulatorReset s).issuer = s.issuer := rfl

@[simp] theorem askModulatorReset_sched (s : State) : (askModulatorReset s).sched = s.sched := rfl

@[simp] theorem askModulatorReset_emitted (s : State) : (askModulatorReset s).emitted = s.emitted := rfl

@[simp] theorem askModulatorReset_freeCount (s : State) : (askModulatorReset s).freeCount = s.freeCount := rfl

/-! `takeResetRequest`. -/

@[simp] theorem takeResetRequest_cfg (s : State) : (takeResetRequest s).cfg = s.cfg := rfl

@[simp] theorem takeResetRequest_life (s : State) : (takeResetRequest s).life = s.life := rfl

@[simp] theorem takeResetRequest_fmt (s : State) : (takeResetRequest s).fmt = s.fmt := rfl

@[simp] theorem takeResetRequest_fv (s : State) : (takeResetRequest s).fv = s.fv := rfl

@[simp] theorem takeResetRequest_os (s : State) : (takeResetRequest s).os = s.os := rfl

@[simp] theorem takeResetRequest_ds (s : State) : (takeResetRequest s).ds = s.ds := rfl

@[simp] theorem takeResetRequest_q (s : State) : (takeResetRequest s).q = s.q := rfl

@[simp] theorem takeResetRequest_mute (s : State) : (takeResetRequest s).mute = s.mute := rfl

@[simp] theorem takeResetRequest_family (s : State) : (takeResetRequest s).family = s.family := rfl

@[simp] theorem takeResetRequest_dsResetReq (s : State) : (takeResetRequest s).dsResetReq = false := rfl

@[simp] theorem takeResetRequest_fb (s : State) : (takeResetRequest s).fb = s.fb := rfl

@[simp] theorem takeResetRequest_portP (s : State) : (takeResetRequest s).portP = s.portP := rfl

@[simp] theorem takeResetRequest_portC (s : State) : (takeResetRequest s).portC = s.portC := rfl

@[simp] theorem takeResetRequest_portT (s : State) : (takeResetRequest s).portT = s.portT := rfl

@[simp] theorem takeResetRequest_issuer (s : State) : (takeResetRequest s).issuer = s.issuer := rfl

@[simp] theorem takeResetRequest_sched (s : State) : (takeResetRequest s).sched = s.sched := rfl

@[simp] theorem takeResetRequest_emitted (s : State) : (takeResetRequest s).emitted = s.emitted := rfl

@[simp] theorem takeResetRequest_freeCount (s : State) : (takeResetRequest s).freeCount = s.freeCount := rfl

/-! `enterMute`. -/

@[simp] theorem enterMute_cfg (s : State) : (enterMute s).cfg = s.cfg := rfl

@[simp] theorem enterMute_life (s : State) : (enterMute s).life = s.life := rfl

@[simp] theorem enterMute_fmt (s : State) : (enterMute s).fmt = s.fmt := rfl

@[simp] theorem enterMute_fv (s : State) : (enterMute s).fv = s.fv := rfl

@[simp] theorem enterMute_os (s : State) : (enterMute s).os = s.os := rfl

@[simp] theorem enterMute_ds (s : State) : (enterMute s).ds = s.ds := rfl

@[simp] theorem enterMute_q (s : State) : (enterMute s).q = { s.q with rc := s.q.wc, occ := 0, total := 0 } := rfl

@[simp] theorem enterMute_mute (s : State) : (enterMute s).mute = .muted := rfl

@[simp] theorem enterMute_family (s : State) : (enterMute s).family = s.family := rfl

@[simp] theorem enterMute_dsResetReq (s : State) : (enterMute s).dsResetReq = s.dsResetReq := rfl

@[simp] theorem enterMute_fb (s : State) : (enterMute s).fb = s.fb := rfl

@[simp] theorem enterMute_portP (s : State) : (enterMute s).portP = s.portP := rfl

@[simp] theorem enterMute_portC (s : State) : (enterMute s).portC = s.portC := rfl

@[simp] theorem enterMute_portT (s : State) : (enterMute s).portT = s.portT := rfl

@[simp] theorem enterMute_issuer (s : State) : (enterMute s).issuer = s.issuer := rfl

@[simp] theorem enterMute_sched (s : State) : (enterMute s).sched = s.sched := rfl

@[simp] theorem enterMute_emitted (s : State) : (enterMute s).emitted = s.emitted := rfl

@[simp] theorem enterMute_freeCount (s : State) : (enterMute s).freeCount = s.freeCount := rfl

/-! `leaveMute`. -/

@[simp] theorem leaveMute_cfg (s : State) : (leaveMute s).cfg = s.cfg := rfl

@[simp] theorem leaveMute_life (s : State) : (leaveMute s).life = s.life := rfl

@[simp] theorem leaveMute_fmt (s : State) : (leaveMute s).fmt = s.fmt := rfl

@[simp] theorem leaveMute_fv (s : State) : (leaveMute s).fv = s.fv := rfl

@[simp] theorem leaveMute_os (s : State) : (leaveMute s).os = s.os := rfl

@[simp] theorem leaveMute_ds (s : State) : (leaveMute s).ds = s.ds := rfl

@[simp] theorem leaveMute_q (s : State) : (leaveMute s).q = s.q := rfl

@[simp] theorem leaveMute_mute (s : State) : (leaveMute s).mute = .playing := rfl

@[simp] theorem leaveMute_family (s : State) : (leaveMute s).family = s.family := rfl

@[simp] theorem leaveMute_dsResetReq (s : State) : (leaveMute s).dsResetReq = s.dsResetReq := rfl

@[simp] theorem leaveMute_fb (s : State) : (leaveMute s).fb = s.fb := rfl

@[simp] theorem leaveMute_portP (s : State) : (leaveMute s).portP = s.portP := rfl

@[simp] theorem leaveMute_portC (s : State) : (leaveMute s).portC = s.portC := rfl

@[simp] theorem leaveMute_portT (s : State) : (leaveMute s).portT = s.portT := rfl

@[simp] theorem leaveMute_issuer (s : State) : (leaveMute s).issuer = s.issuer := rfl

@[simp] theorem leaveMute_sched (s : State) : (leaveMute s).sched = s.sched := rfl

@[simp] theorem leaveMute_emitted (s : State) : (leaveMute s).emitted = s.emitted := rfl

@[simp] theorem leaveMute_freeCount (s : State) : (leaveMute s).freeCount = s.freeCount := rfl

/-! `emit`. -/

@[simp] theorem emit_cfg (ws : List (Word × Word)) (s : State) : (emit ws s).cfg = s.cfg := rfl

@[simp] theorem emit_life (ws : List (Word × Word)) (s : State) : (emit ws s).life = s.life := rfl

@[simp] theorem emit_fmt (ws : List (Word × Word)) (s : State) : (emit ws s).fmt = s.fmt := rfl

@[simp] theorem emit_fv (ws : List (Word × Word)) (s : State) : (emit ws s).fv = s.fv := rfl

@[simp] theorem emit_os (ws : List (Word × Word)) (s : State) : (emit ws s).os = s.os := rfl

@[simp] theorem emit_ds (ws : List (Word × Word)) (s : State) : (emit ws s).ds = s.ds := rfl

@[simp] theorem emit_q (ws : List (Word × Word)) (s : State) : (emit ws s).q = s.q := rfl

@[simp] theorem emit_mute (ws : List (Word × Word)) (s : State) : (emit ws s).mute = s.mute := rfl

@[simp] theorem emit_family (ws : List (Word × Word)) (s : State) : (emit ws s).family = s.family := rfl

@[simp] theorem emit_dsResetReq (ws : List (Word × Word)) (s : State) : (emit ws s).dsResetReq = s.dsResetReq := rfl

@[simp] theorem emit_fb (ws : List (Word × Word)) (s : State) : (emit ws s).fb = s.fb := rfl

@[simp] theorem emit_portP (ws : List (Word × Word)) (s : State) : (emit ws s).portP = s.portP := rfl

@[simp] theorem emit_portC (ws : List (Word × Word)) (s : State) : (emit ws s).portC = s.portC := rfl

@[simp] theorem emit_portT (ws : List (Word × Word)) (s : State) : (emit ws s).portT = s.portT := rfl

@[simp] theorem emit_issuer (ws : List (Word × Word)) (s : State) : (emit ws s).issuer = s.issuer := rfl

@[simp] theorem emit_sched (ws : List (Word × Word)) (s : State) : (emit ws s).sched = s.sched := rfl

@[simp] theorem emit_emitted (ws : List (Word × Word)) (s : State) :
    (emit ws s).emitted =
      s.emitted ++ ws.map (fun w => ⟨w.1, w.2, s.family⟩) := rfl

@[simp] theorem emit_freeCount (ws : List (Word × Word)) (s : State) : (emit ws s).freeCount = s.freeCount := rfl

/-! The configuration record: what the source's values set, and a status field of it. -/

@[simp] theorem Config.withSourceValues_backpressureLevel (c : Config) :
    c.withSourceValues.backpressureLevel = c.withSourceValues.nSlots - 1 := rfl
@[simp] theorem Config.withSourceValues_backpressurePairs (c : Config) : c.withSourceValues.backpressurePairs = 1 := rfl
@[simp] theorem Config.withSourceValues_fvTolPpm (c : Config) : c.withSourceValues.fvTolPpm = 250 := rfl
@[simp] theorem Config.withSourceValues_clampBound (c : Config) : c.withSourceValues.clampBound = 12582912 := rfl
@[simp] theorem Config.withSourceValues_fbErrLimit (c : Config) : c.withSourceValues.fbErrLimit = 5 := rfl
@[simp] theorem Config.withSourceValues_fbBandPpm (c : Config) : c.withSourceValues.fbBandPpm = 125 := rfl
@[simp] theorem Config.withSourceValues_fbGlitchPpm (c : Config) : c.withSourceValues.fbGlitchPpm = 1000 := rfl

/-- A status field shows a parameter that fits it as it is. -/
theorem configField_toNat_of_lt {w n : Nat} (k : Nat) (h : n < 2 ^ w) : (configField w k n).toNat = n := by
  simp [configField, h, Nat.mod_eq_of_lt h]

end Sys2Proof.Machine
end

