-- ==== Sys2Proof/Laws/Ops.lean ====
section
/-! SUPPORT. One lemma per shared operation that says once everything it can do. -/

namespace Sys2Proof.Machine

/-! The checks before an operation, and the response. -/

/-- Raising a status always answers a next state. -/
@[simp] theorem State.raise_eq (s : State) (st : Status) (ws : List Word) :
    s.raise st ws = .next (s.respond (Reply.plain st ws)) := rfl

/-- Ending with `OK` is raising `OK`. -/
@[simp] theorem State.done_eq (s : State) (ws : List Word) : s.done ws = .next (s.respond (Reply.plain .ok ws)) := rfl

/-- The words of a response without an output block. -/
@[simp] theorem Reply.words_plain (st : Status) (ws : List Word) :
    (Reply.plain st ws).words = statusWord st 0 :: ws := by
  simp [Reply.plain, Reply.words]

/-- The words of a response with an output block. -/
@[simp] theorem Reply.words_withBlock (ws : List Word) (b : Block) :
    (Reply.withBlock ws b).words = statusWord .ok b.length :: (ws ++ b.words) := rfl

/-- The words of a response of `CCY`. -/
@[simp] theorem Reply.words_withWords (st : Status) (ws : List (Word × Word)) :
    (Reply.withWords st ws).words = statusWord st ws.length :: pairWords ws := by
  simp [Reply.withWords, Reply.words]

/-- The gate is open: the body runs. -/
theorem State.gate_open {s : State} {row : Row} (body : State → Result) (hp : s.issuer ∈ ports row)
    (hl : s.life = .ready ∨ runsUnready row = true) : s.gate row body = body s := by
  simp [State.gate, hp, hl]

/-- The gate is open to every operation that the issuing port accepts once the block is `READY`. -/
theorem State.gate_ready {x : Port} {s : State} {row : Row} (h : Ready x s) (hx : x ∈ ports row)
    (body : State → Result) : s.gate row body = body s :=
  State.gate_open body (by rw [h.1]; exact hx) (.inl h.2)

/-- The wrong port. -/
theorem State.gate_wrongPort {s : State} {row : Row} (body : State → Result) (hp : s.issuer ∉ ports row) :
    s.gate row body = s.raise .illegal (illegalResults row) := by
  simp [State.gate, hp]

/-- The right port, the wrong lifecycle. -/
theorem State.gate_notReady {s : State} {row : Row} (body : State → Result) (hp : s.issuer ∈ ports row)
    (hl : s.life ≠ .ready) (hr : runsUnready row = false) :
    s.gate row body = s.raise .notReady (refusedResults row s) := by
  simp [State.gate, hp, hl, hr]

/-- Everything a gated operation can do: run its body, on an accepting port and a fit lifecycle, or answer a refusal. -/
theorem State.gate_cases {s : State} {row : Row} {body : State → Result} {o : Result} (h : s.gate row body = o) :
    (s.issuer ∈ ports row ∧ (s.life = .ready ∨ runsUnready row = true) ∧ body s = o) ∨
    (s.issuer ∉ ports row ∧ o = s.raise .illegal (illegalResults row)) ∨
    (s.issuer ∈ ports row ∧ s.life ≠ .ready ∧ o = s.raise .notReady (refusedResults row s)) := by
  unfold State.gate at h
  split at h
  · split at h
    · rename_i hp hl
      exact .inl ⟨hp, hl, h⟩
    · rename_i hp hl
      exact .inr (.inr ⟨hp, fun e => hl (.inl e), h.symm⟩)
  · rename_i hp
    exact .inr (.inl ⟨hp, h.symm⟩)

/-- Every operation passes the checks of its row first. -/
theorem exec_gated (i : Instr) (s : State) : ∃ body, exec i s = s.gate i.row body := by
  cases i <;>
    simp only [exec, Instr.row, execFvo, execFvd, execFvt, execOsr, execOss, execOsa, execOsz, execQen, execQde, execQoc,
      execQts, execQrs, execDse, execDsz, execFbc, execFbu, execFbr, execPcy, execCcy, execInit, execRds] <;>
    exact ⟨_, rfl⟩

/-- A refusal carries the result words its row has. -/
theorem refusedResults_length (row : Row) (s : State) : (refusedResults row s).length = resultWords row := by
  cases row <;> rfl

/-- Two states agree on a piece of state when the second differs only by a response. -/
theorem Item.same_respond {s t : State} {x : Item} (r : Reply) (h : x.same s t) : x.same s (t.respond r) := by
  cases x <;> simpa [Item.same] using h

/-- A status register reads the same after a response. -/
@[simp] theorem fmtWord_respond (s : State) (r : Reply) : fmtWord (s.respond r) = fmtWord s := by simp [fmtWord]

/-- How an operation ends when its body has changed nothing outside `written` and then answers. -/
theorem Ends.of_respond {written : List Item} {response : List Word} {stream : List Emission} {draws : Nat}
    {s u : State} {r : Reply} (words : r.words = response)
    (rest : ∀ x, x ∉ written → x.same s u) (configuration : u.cfg = s.cfg) (issuer : u.issuer = s.issuer)
    (schedule : u.sched = s.sched) (ports : ∀ y, u.port y = s.port y) (emitted : u.emitted = s.emitted ++ stream)
    (hdraws : u.freeCount = s.freeCount + draws) :
    Ends written response stream draws s (u.respond r) where
  rest x hx := Item.same_respond r (rest x hx)
  configuration := by simpa using configuration
  issuer := by simpa using issuer
  schedule := by simpa using schedule
  otherPorts y hy := by
    rw [State.respond_port_other u r (by rw [issuer]; exact hy), ports]
  input := by
    rw [← issuer, State.respond_port_issuer, PortState.respond_input, ports, issuer]
  flight := by
    rw [← issuer, State.respond_port_issuer, PortState.respond_flight, ports, issuer]
  output := by
    rw [← issuer, State.respond_port_issuer, PortState.respond_output, ports, issuer, words]
  emitted := by simpa using emitted
  draws := by simpa using hdraws

/-- A plain answer that changes nothing. -/
theorem Ends.of_raise (s : State) (st : Status) (ws : List Word) :
    Ends [] (statusWord st 0 :: ws) [] 0 s (s.respond (Reply.plain st ws)) := by
  refine Ends.of_respond (Reply.words_plain st ws) (fun x _ => ?_) rfl rfl rfl (fun _ => rfl) (List.append_nil _).symm rfl
  cases x <;> simp [Item.same]

/-! The validator. -/

/-- Everything `observe` can do: the candidates become the previous ones, and the format is validated with the signal, kept,
or invalidated. -/
theorem observe_cases (cr : Option Rate) (cd : Option Depth) (s : State) :
    (observationOk cr cd s = true ∧ s.fmt.valid = true ∧
      observe cr cd s = { s with fv := { s.fv with prevRate := cr, prevDepth := cd } }) ∨
    (observationOk cr cd s = true ∧ s.fmt.valid = false ∧
      observe cr cd s =
        { s with
          fmt := { rate := cr, depth := cd, valid := true }
          fv := { prevRate := cr, prevDepth := cd, updated := true } }) ∨
    (observationOk cr cd s = false ∧
      observe cr cd s =
        { s with fmt := { s.fmt with valid := false }, fv := { s.fv with prevRate := cr, prevDepth := cd } }) := by
  unfold observe observationOk
  by_cases h : cr ≠ none ∧ cd ≠ none ∧ cr = s.fv.prevRate ∧ cd = s.fv.prevDepth
  · simp only [if_pos h, decide_eq_true h]
    cases s.fmt.valid
    · exact .inr (.inl ⟨trivial, rfl, rfl⟩)
    · exact .inl ⟨trivial, rfl, rfl⟩
  · simp only [if_neg h, decide_eq_false h]
    exact .inr (.inr ⟨trivial, trivial⟩)

/-! The cascade. -/

/-- A stage gives two pairs for each pair it receives (R148). -/
theorem stageBlock_length (bound : Nat) (sc : StageConfig) (b : Block) (f : FilterState) :
    (stageBlock bound sc f b).2.length = 2 * b.length := by
  induction b generalizing f with
  | nil => rfl
  | cons x b ih => simp [stageBlock, ih]; omega

/-- A stage does not see where its input is cut. -/
theorem stageBlock_append (bound : Nat) (sc : StageConfig) (x y : Block) (f : FilterState) :
    stageBlock bound sc f (x ++ y) =
      ((stageBlock bound sc (stageBlock bound sc f x).1 y).1, (stageBlock bound sc f x).2 ++ (stageBlock bound sc (stageBlock bound sc f x).1 y).2) := by
  induction x generalizing f with
  | nil => simp [stageBlock]
  | cons p x ih => simp [stageBlock, ih]

/-- The cells of a delay line are rewritten, never added or removed. -/
theorem stageBlock_dl_length (bound : Nat) (sc : StageConfig) (b : Block) (f : FilterState) :
    (stageBlock bound sc f b).1.dl.length = f.dl.length := by
  induction b generalizing f with
  | nil => rfl
  | cons x b ih => simp [stageBlock, ih, stagePair]

/-- The cursor stays inside its delay line. -/
theorem stageBlock_cur_lt (bound : Nat) (sc : StageConfig) (b : Block) (f : FilterState) (hb : b ≠ []) (ht : 0 < sc.taps) :
    (stageBlock bound sc f b).1.cur < 2 * sc.taps := by
  induction b generalizing f with
  | nil => exact absurd rfl hb
  | cons x b ih =>
    cases b with
    | nil => simpa [stageBlock, stagePair] using Nat.mod_lt _ (by omega)
    | cons y b => exact ih _ (by simp)

/-- A stage keeps the shape of its filter state. -/
theorem stageBlock_shape {bound : Nat} {sc : StageConfig} {f : FilterState} (b : Block) (ht : 0 < sc.taps)
    (h : StageShape (2 * sc.taps) f) : StageShape (2 * sc.taps) (stageBlock bound sc f b).1 := by
  refine ⟨(stageBlock_dl_length bound sc b f).trans h.1, ?_⟩
  cases b with
  | nil => exact h.2
  | cons x b => exact .inl (stageBlock_cur_lt bound sc (x :: b) f (by simp) ht)

/-- Replacing the value held for one stage. -/
@[simp] theorem PerStage.get_set_same {α : Type} (t : PerStage α) (s : Stage) (v : α) : (t.set s v).get s = v := by
  cases s <;> rfl

/-- Replacing the value held for one stage leaves the others. -/
theorem PerStage.get_set_other {α : Type} (t : PerStage α) {s s' : Stage} (v : α) (h : s' ≠ s) :
    (t.set s v).get s' = t.get s' := by
  cases s <;> cases s' <;> first | rfl | exact absurd rfl h

/-- Replacing the value held for one stage by itself. -/
@[simp] theorem PerStage.set_get_self {α : Type} (t : PerStage α) (s : Stage) : t.set s (t.get s) = t := by
  cases s <;> rfl

/-- Two records that agree on every stage are equal. -/
theorem PerStage.ext_get {α : Type} {t u : PerStage α} (h : ∀ s, t.get s = u.get s) : t = u := by
  obtain ⟨a, b, c⟩ := t
  obtain ⟨a', b', c'⟩ := u
  have h0 : a = a' := h .s0
  have h1 : b = b' := h .s1
  have h2 : c = c' := h .s2
  subst h0 h1 h2
  rfl

/-- Each stage of a cascade doubles the block. -/
theorem cascadeBlock_length (cfg : Config) (ss : List Stage) (b : Block) (os : PerStage FilterState) :
    (cascadeBlock cfg os ss b).2.length = 2 ^ ss.length * b.length := by
  induction ss generalizing os b with
  | nil => simp [cascadeBlock]
  | cons s ss ih => simp [cascadeBlock, ih, stageBlock_length, Nat.pow_succ, Nat.mul_assoc]

/-- A cascade touches its own stages only. -/
theorem cascadeBlock_other (cfg : Config) {ss : List Stage} (b : Block) (os : PerStage FilterState) {s : Stage}
    (h : s ∉ ss) : (cascadeBlock cfg os ss b).1.get s = os.get s := by
  induction ss generalizing os b with
  | nil => rfl
  | cons s' ss ih =>
    rw [List.mem_cons, not_or] at h
    simp only [cascadeBlock]
    rw [ih _ _ h.2, PerStage.get_set_other _ _ h.1]

/-- A cascade over an empty block touches nothing. -/
@[simp] theorem cascadeBlock_nil (cfg : Config) (ss : List Stage) (os : PerStage FilterState) :
    cascadeBlock cfg os ss [] = (os, []) := by
  induction ss generalizing os with
  | nil => rfl
  | cons s ss ih => simp [cascadeBlock, stageBlock, ih]

/-- A cascade keeps the shape of every stage. -/
theorem cascadeBlock_shape {cfg : Config} {ss : List Stage} (b : Block) {os : PerStage FilterState}
    (ht : ∀ s, 0 < (cfg.stage.get s).taps) (h : ∀ s, StageShape (cfg.lineLength s) (os.get s)) :
    ∀ s, StageShape (cfg.lineLength s) ((cascadeBlock cfg os ss b).1.get s) := by
  induction ss generalizing os b with
  | nil => exact h
  | cons s' ss ih =>
    refine ih _ (fun s => ?_)
    by_cases hs : s = s'
    · subst hs
      rw [PerStage.get_set_same]
      exact stageBlock_shape b (ht s) (h s)
    · rw [PerStage.get_set_other _ _ hs]
      exact h s

/-- How many stages a rate uses. -/
@[simp] theorem Stage.firstStages_length (r : Rate) : (Stage.firstStages r.stages).length = r.stages := by
  cases r <;> rfl

/-- Every rate code is decoded to its rate (R96). -/
@[simp] theorem Rate.ofCode_code (r : Rate) : Rate.ofCode r.code = some r := by cases r <;> rfl

/-- A decoded rate code is the code of the rate. -/
theorem Rate.ofCode_eq_some {c : BitVec 4} {r : Rate} (h : Rate.ofCode c = some r) : r.code = c := by
  simpa using List.find?_some h

/-! The queue. -/

/-- Everything `enqueue` can do: refuse for width, refuse for fullness, fault at a slot access, or write and commit. -/
theorem enqueue_cases (g : Family) (b : Block) (s : State) :
    ((b = [] ∨ s.cfg.frameMax < b.length) ∧ enqueue g b s = .ok (.widthErr, s)) ∨
    (b ≠ [] ∧ b.length ≤ s.cfg.frameMax ∧ s.cfg.nSlots ≤ s.q.occ ∧ enqueue g b s = .ok (.qFull, s)) ∨
    (b ≠ [] ∧ b.length ≤ s.cfg.frameMax ∧ s.q.occ < s.cfg.nSlots ∧
      ∃ e, slotWriteBlock s.cfg s.q.data s.q.wc 0 b = .error e ∧ enqueue g b s = .error e) ∨
    (b ≠ [] ∧ b.length ≤ s.cfg.frameMax ∧ s.q.occ < s.cfg.nSlots ∧
      ∃ m, slotWriteBlock s.cfg s.q.data s.q.wc 0 b = .ok m ∧
        enqueue g b s =
          .ok (.ok, commitEnqueue b.length (writeHeader g b.length { s with q := { s.q with data := m } }))) := by
  unfold enqueue
  by_cases hw : b = [] ∨ s.cfg.frameMax < b.length
  · exact .inl ⟨hw, by rw [if_pos hw]⟩
  · rw [if_neg hw]
    rw [not_or, Nat.not_lt] at hw
    by_cases hf : s.cfg.nSlots ≤ s.q.occ
    · exact .inr (.inl ⟨hw.1, hw.2, hf, by rw [if_pos hf]⟩)
    · rw [if_neg hf]
      rw [Nat.not_le] at hf
      cases hm : slotWriteBlock s.cfg s.q.data s.q.wc 0 b with
      | error e => exact .inr (.inr (.inl ⟨hw.1, hw.2, hf, e, rfl, rfl⟩))
      | ok m => exact .inr (.inr (.inr ⟨hw.1, hw.2, hf, m, rfl, rfl⟩))

/-- Everything `dequeue` can do: find nothing, fault at a slot access, or copy the frame out and commit. -/
theorem dequeue_cases (s : State) :
    (s.q.occ = 0 ∧ dequeue s = .ok (none, s)) ∨
    (0 < s.q.occ ∧ ∃ e, slotReadBlock s.cfg s.q.data s.q.rc 0 (s.q.header s.q.rc).len = .error e ∧
      dequeue s = .error e) ∨
    (0 < s.q.occ ∧ ∃ b, slotReadBlock s.cfg s.q.data s.q.rc 0 (s.q.header s.q.rc).len = .ok b ∧
      dequeue s =
        .ok (some ((s.q.header s.q.rc).group, b),
          setFamily (s.q.header s.q.rc).group (commitDequeue (s.q.header s.q.rc).len s))) := by
  unfold dequeue
  by_cases ho : s.q.occ = 0
  · exact .inl ⟨ho, by rw [if_pos ho]⟩
  · rw [if_neg ho]
    cases hb : slotReadBlock s.cfg s.q.data s.q.rc 0 (s.q.header s.q.rc).len with
    | error e => exact .inr (.inl ⟨Nat.pos_of_ne_zero ho, e, rfl, rfl⟩)
    | ok b => exact .inr (.inr ⟨Nat.pos_of_ne_zero ho, b, rfl, rfl⟩)

/-! Backpressure. -/

/-- Everything `backpressure` can do: leave the block below the level, or take the configured pairs off its end. -/
theorem backpressure_cases (cfg : Config) (occ0 : Nat) (y : Block) :
    (occ0 < cfg.backpressureLevel ∧ backpressure cfg occ0 y = y) ∨
    (cfg.backpressureLevel ≤ occ0 ∧ backpressure cfg occ0 y = y.take (y.length - cfg.backpressurePairs)) := by
  unfold backpressure
  split
  · exact .inr ⟨by assumption, rfl⟩
  · exact .inl ⟨by omega, rfl⟩

/-- With the device's constants the block loses its last pair, at occupancy `N_SLOTS - 1` or more (R225). -/
theorem backpressure_withSourceValues (c : Config) (occ0 : Nat) (y : Block) :
    backpressure c.withSourceValues occ0 y = if c.nSlots - 1 ≤ occ0 then y.dropLast else y := by
  rw [List.dropLast_eq_take]
  rfl

/-! The encoder. -/

/-- Integrators after an update: as many as before, each inside its register. -/
theorem integrate_eq_some {cfg : Config} {y : Int} (is : List Int) {lower : Int} {is' : List Int}
    (h : integrate cfg y lower is = some is') :
    is'.length = is.length ∧ ∀ v ∈ is', fitsIntegrator cfg v = true := by
  induction is generalizing lower is' with
  | nil => cases h; simp
  | cons i is ih =>
    simp only [integrate] at h
    split at h
    · rename_i hf
      split at h
      · rename_i is'' hs
        cases h
        obtain ⟨hl, hv⟩ := ih hs
        refine ⟨by simp [hl], fun v hm => ?_⟩
        rcases List.mem_cons.mp hm with rfl | hm
        · exact hf
        · exact hv v hm
      · cases h
    · cases h

/-- A run of sub-steps: one code for each, as many integrators as before, each inside its register when there was a
sub-step. -/
theorem subSteps_eq_some {cfg : Config} (us : List Int) {integ integ' codes : List Int}
    (h : subSteps cfg integ us = some (integ', codes)) :
    integ'.length = integ.length ∧ codes.length = us.length ∧
    ((∀ v ∈ integ, fitsIntegrator cfg v = true) → ∀ v ∈ integ', fitsIntegrator cfg v = true) := by
  induction us generalizing integ integ' codes with
  | nil => cases h; simp
  | cons u us ih =>
    simp only [subSteps] at h
    split at h
    · cases h
    · rename_i i1 code hs
      split at h
      · cases h
      · rename_i i2 codes' hr
        cases h
        simp only [subStep] at hs
        split at hs
        · rename_i i3 hi
          cases hs
          obtain ⟨hl, hv⟩ := integrate_eq_some _ hi
          obtain ⟨hl', hc, hv'⟩ := ih hr
          exact ⟨hl'.trans hl, by simp [hc], fun _ => hv' hv⟩
        · cases hs

/-- Everything an encoded channel is. -/
theorem encodeChannel_eq_some {cfg : Config} {ch ch' : Channel} {x w : Word}
    (h : encodeChannel cfg ch x = some (ch', w)) :
    ∃ codes, subSteps cfg ch.integ (subSamples cfg ch.prev.toInt x.toInt) = some (ch'.integ, codes) ∧
      ch'.prev = x ∧ w = BitVec.ofNat 32 (packCodes cfg.dsW codes) := by
  unfold encodeChannel at h
  split at h
  · rename_i i codes hs
    cases h
    exact ⟨codes, hs, rfl, rfl⟩
  · cases h

/-- Encoding keeps the shape of a channel. -/
theorem encodeChannel_shape {cfg : Config} {ch ch' : Channel} {x w : Word}
    (h : encodeChannel cfg ch x = some (ch', w)) (hc : ChannelShape cfg ch) : ChannelShape cfg ch' := by
  obtain ⟨codes, hs, -, -⟩ := encodeChannel_eq_some h
  obtain ⟨hl, -, hv⟩ := subSteps_eq_some _ hs
  exact ⟨hl.trans hc.1, hv hc.2⟩

/-- Everything `encodePair` can do: both channels are encoded and stored; the modulator is lost already, stays lost and
the words are free; or a channel overflows and the modulator is lost. -/
theorem encodePair_cases (p : Pair) (s : State) :
    (∃ chL wL chR wR, s.ds.lost = false ∧ encodeChannel s.cfg s.ds.left p.l = some (chL, wL) ∧
      encodeChannel s.cfg s.ds.right p.r = some (chR, wR) ∧
      encodePair p s = (some (wL, wR), storeChannels chL chR s)) ∨
    (s.ds.lost = true ∧ (∃ r, encodeChannel s.cfg s.ds.left p.l = some r) ∧
      (∃ r, encodeChannel s.cfg s.ds.right p.r = some r) ∧
      encodePair p s = (some (freeWords s), loseModulator s)) ∨
    ((encodeChannel s.cfg s.ds.left p.l = none ∨ encodeChannel s.cfg s.ds.right p.r = none) ∧
      encodePair p s = (none, loseModulator s)) := by
  unfold encodePair
  cases hl : encodeChannel s.cfg s.ds.left p.l with
  | none => exact .inr (.inr ⟨.inl rfl, rfl⟩)
  | some x =>
    cases hr : encodeChannel s.cfg s.ds.right p.r with
    | none => exact .inr (.inr ⟨.inr rfl, rfl⟩)
    | some y =>
      cases h : s.ds.lost with
      | false => exact .inl ⟨x.1, x.2, y.1, y.2, rfl, rfl, rfl, rfl⟩
      | true => exact .inr (.inl ⟨rfl, ⟨x, rfl⟩, ⟨y, rfl⟩, rfl⟩)

/-- Encoding a pair changes the modulator and the count of free values drawn, nothing else. -/
theorem encodePair_frame (p : Pair) (s : State) :
    ∃ d k, (encodePair p s).2 = { s with ds := d, freeCount := s.freeCount + k } := by
  rcases encodePair_cases p s with ⟨chL, wL, chR, wR, -, -, -, h⟩ | ⟨-, -, -, h⟩ | ⟨-, h⟩ <;> rw [h]
  · exact ⟨_, 0, rfl⟩
  · exact ⟨_, 1, rfl⟩
  · exact ⟨_, 1, rfl⟩

/-- Encoding a block changes the modulator and the count of free values drawn, nothing else. -/
theorem encodeBlock_frame (b : Block) (s : State) :
    ∃ d k, (encodeBlock b s).2 = { s with ds := d, freeCount := s.freeCount + k } := by
  induction b generalizing s with
  | nil => exact ⟨s.ds, 0, rfl⟩
  | cons p b ih =>
    obtain ⟨d, k, h⟩ := encodePair_frame p s
    simp only [encodeBlock]
    split
    · rename_i s' hp
      exact ⟨d, k, by rw [← h, hp]⟩
    · rename_i w s' hp
      have hs' : s' = { s with ds := d, freeCount := s.freeCount + k } := by rw [← h, hp]
      obtain ⟨d', k', h'⟩ := ih s'
      split
      · rename_i s'' hb
        refine ⟨d', k + k', ?_⟩
        have : s'' = (encodeBlock b s').2 := by rw [hb]
        rw [this, h', hs', Nat.add_assoc]
      · rename_i ws s'' hb
        refine ⟨d', k + k', ?_⟩
        have : s'' = (encodeBlock b s').2 := by rw [hb]
        rw [this, h', hs', Nat.add_assoc]

/-- A block that is encoded whole gives one word pair for each pair. -/
theorem encodeBlock_length {b : Block} {s u : State} {ws : List (Word × Word)}
    (h : encodeBlock b s = (some ws, u)) : ws.length = b.length := by
  induction b generalizing s u ws with
  | nil => cases h; rfl
  | cons p b ih =>
    simp only [encodeBlock] at h
    split at h
    · cases h
    · split at h
      · cases h
      · rename_i ws' s'' hb
        cases h
        simp [ih hb]

/-! The feedback controller. -/

/-- The format in force, where there is one. -/
theorem activeFormat_eq_some {s : State} {r : Rate} {d : Depth} :
    activeFormat s = some (r, d) ↔ s.fmt = { rate := some r, depth := some d, valid := true } := by
  unfold activeFormat
  generalize s.fmt = f
  obtain ⟨rate, depth, valid⟩ := f
  cases valid <;> cases rate <;> cases depth <;> simp

/-- Without a valid format none is in force. -/
theorem activeFormat_invalid {s : State} (h : s.fmt.valid = false) : activeFormat s = none := by
  unfold activeFormat
  rw [h]

/-- Everything `configureFeedback` can do: refuse, or seed. -/
theorem configureFeedback_cases (s : State) :
    (activeFormat s = none ∧ configureFeedback s = (.formatErr, s)) ∨
    (∃ r d, activeFormat s = some (r, d) ∧ configureFeedback s = (.ok, seedFeedback r d s)) := by
  unfold configureFeedback
  cases h : activeFormat s with
  | none => exact .inl ⟨rfl, rfl⟩
  | some rd => exact .inr ⟨rd.1, rd.2, rfl, rfl⟩

/-- Everything `updateFeedback` can do: refuse, hold on a glitch, or update. -/
theorem updateFeedback_cases (tick : Word) (total : Nat) (s : State) :
    ((activeFormat s = none ∨ s.fb.configured = false) ∧ updateFeedback tick total s = (.formatErr, s)) ∨
    (∃ r d, activeFormat s = some (r, d) ∧ s.fb.configured = true ∧ isGlitch tick s = true ∧
      updateFeedback tick total s =
        (.fbGlitch, { s with fb := { s.fb with lastTicks := tick, haveLast := true } })) ∨
    (∃ r d, activeFormat s = some (r, d) ∧ s.fb.configured = true ∧ isGlitch tick s = false ∧
      updateFeedback tick total s =
        (.ok,
          { s with
            fb := { s.fb with value := correctedValue r total s, lastTicks := tick, haveLast := true } })) := by
  unfold updateFeedback
  cases h : activeFormat s with
  | none => exact .inl ⟨.inl rfl, rfl⟩
  | some rd =>
    cases hc : s.fb.configured with
    | false => exact .inl ⟨.inr rfl, by simp⟩
    | true =>
      cases hg : isGlitch tick s with
      | true => exact .inr (.inl ⟨rd.1, rd.2, rfl, rfl, rfl, by simp⟩)
      | false => exact .inr (.inr ⟨rd.1, rd.2, rfl, rfl, rfl, by simp⟩)

/-- The feedback update touches the feedback registers only. -/
theorem updateFeedback_frame (tick : Word) (total : Nat) (s : State) :
    ∃ f, (updateFeedback tick total s).2 = { s with fb := f } := by
  rcases updateFeedback_cases tick total s with ⟨-, h⟩ | ⟨r, d, -, -, -, h⟩ | ⟨r, d, -, -, -, h⟩ <;> rw [h] <;>
    exact ⟨_, rfl⟩

/-- A clamped value lies between its bounds. -/
theorem clamp_bounds (v : Int) {lo hi : Int} (h : lo ≤ hi) : lo ≤ clamp v lo hi ∧ clamp v lo hi ≤ hi := by
  unfold clamp
  split
  · exact ⟨Int.le_refl _, h⟩
  · split <;> constructor <;> omega

/-! The cycles. -/

/-- Everything line 1 of `PCY` can do: nothing pending, or the three resets. -/
theorem takeSignal_cases (s : State) :
    (s.fv.updated = false ∧ takeSignal s = takeUpdated s) ∨
    (s.fv.updated = true ∧ activeFormat s = none ∧
      takeSignal s = askModulatorReset (zeroCascade (takeUpdated s))) ∨
    (∃ r d, s.fv.updated = true ∧ activeFormat s = some (r, d) ∧
      takeSignal s = seedFeedback r d (askModulatorReset (zeroCascade (takeUpdated s)))) := by
  have ha : activeFormat (askModulatorReset (zeroCascade (takeUpdated s))) = activeFormat s := rfl
  unfold takeSignal
  cases h : s.fv.updated with
  | false => exact .inl ⟨rfl, by simp⟩
  | true =>
    rcases configureFeedback_cases (askModulatorReset (zeroCascade (takeUpdated s))) with ⟨hn, hc⟩ | ⟨r, d, hn, hc⟩
    · exact .inr (.inl ⟨rfl, ha ▸ hn, by simp [hc]⟩)
    · exact .inr (.inr ⟨r, d, rfl, ha ▸ hn, by simp [hc]⟩)

/-- The cascade in its reset state, stage by stage. -/
theorem cascadeZero_get (cfg : Config) (st : Stage) : (cascadeZero cfg).get st = FilterState.zero (cfg.lineLength st) := by
  cases st <;> rfl

/-- The body of `OSZ` leaves the reset state of the cascade. -/
@[simp] theorem zeroCascade_os_eq (s : State) : (zeroCascade s).os = cascadeZero s.cfg := by
  refine PerStage.ext_get fun st => ?_
  cases st <;> rfl

/-! Operations step by step. -/

/-- Going on with an operation in flight always answers a next state. -/
@[simp] theorem State.goOn_eq (s : State) (f : Flight) :
    s.goOn f = .next (s.setPort s.issuer { s.port s.issuer with flight := some f }) := rfl

/-- A turn with nothing in flight, by what the decoder gives. -/
theorem fetch_cases (g : Grain) (s : State) :
    (∃ i rest, decode (s.port s.issuer).input = .ok (i, rest) ∧ fetch g s = start g i (s.consume rest)) ∨
    ((decode (s.port s.issuer).input = .error .noCommand ∨ decode (s.port s.issuer).input = .error .incomplete) ∧
      fetch g s = .next s) ∨
    ((decode (s.port s.issuer).input = .error .unassignedOpcode ∨
        decode (s.port s.issuer).input = .error .unusedFieldNotZero) ∧
      fetch g s = (s.consume (s.port s.issuer).input.tail).raise .illegal []) := by
  unfold fetch
  cases h : decode (s.port s.issuer).input with
  | ok ir => exact .inl ⟨ir.1, ir.2, rfl, rfl⟩
  | error e =>
    cases e with
    | noCommand => exact .inr (.inl ⟨.inl rfl, rfl⟩)
    | incomplete => exact .inr (.inl ⟨.inr rfl, rfl⟩)
    | unassignedOpcode => exact .inr (.inr ⟨.inl rfl, rfl⟩)
    | unusedFieldNotZero => exact .inr (.inr ⟨.inr rfl, rfl⟩)

/-- Everything a step can do: with nothing scheduled nothing, else a step in flight or a fetch. -/
theorem step_cases (s : State) :
    (s.sched = [] ∧ step s = .next s) ∨
    ∃ turn sched, s.sched = turn :: sched ∧
      ((∃ f, (s.port turn.port).flight = some f ∧
          step s = advance f { s with sched := sched, issuer := turn.port }) ∨
        ((s.port turn.port).flight = none ∧
          step s = fetch turn.grain { s with sched := sched, issuer := turn.port })) := by
  unfold step
  cases hs : s.sched with
  | nil => exact .inl ⟨rfl, rfl⟩
  | cons turn sched =>
    refine .inr ⟨turn, sched, rfl, ?_⟩
    have hport : ({ s with sched := sched, issuer := turn.port } : State).port turn.port = s.port turn.port := by
      cases turn.port <;> rfl
    simp only [takeTurn, hport]
    cases hf : (s.port turn.port).flight with
    | none => exact .inr ⟨rfl, rfl⟩
    | some f => exact .inl ⟨f, rfl, rfl⟩

/-- A result followed by a continuation answers a next state only through a next state. -/
theorem andThen_eq_next {r : Result} {f : State → Result} {t : State} (h : andThen r f = .next t) :
    ∃ u, r = .next u ∧ f u = .next t := by
  cases r with
  | next u => exact ⟨u, rfl, h⟩
  | fault e => cases h
  | refused e => cases h

end Sys2Proof.Machine
end

