-- ==== Sys2Proof/Laws/PerInstr.lean ====
section
/-! SUPPORT. The families of per-instruction lemmas (LAWS.json). -/

namespace Sys2Proof.Laws.EncodedShape

/-- The encoded shape of an operation (R91 to R94): the command word, the operand words of its row and two words for each
pair of payload; the fields of the command word, with the opcode of the row and every field its format does not use 0;
and for a well-formed operation as many pairs as the length field says. -/
def Statement (i : Instr) : Prop :=
  (encode i).length = 1 + i.row.operandWords + 2 * i.payload.length ∧
  Fields.ofWord ((encode i).headD 0) = i.fields ∧ i.fields.op = i.row.op ∧
  i.row.format.accepts i.fields = true ∧
  (i.WellFormed → i.payload.length = i.row.payloadPairs i.fields)

/-- The number of words of any operation. -/
theorem encode_length (i : Instr) : (encode i).length = 1 + i.operands.length + 2 * i.payload.length := by
  simp [encode]
  omega

/-- The fields of the command word of any operation. -/
theorem encode_head (i : Instr) : Fields.ofWord ((encode i).headD 0) = i.fields := by
  simp [encode]

/-- A length that the length field can carry is read back from it. -/
theorem fits_length {b : Block} (h : b.fitsLength) : b.length = (BitVec.ofNat 16 b.length).toNat := by
  rw [BitVec.toNat_ofNat]
  exact (Nat.mod_eq_of_lt h).symm

/-- The encoded shape of `FVO`. -/
theorem fvo (x y : Word) : Statement (.fvo x y) :=
  ⟨encode_length _, encode_head _, rfl, rfl, fun _ => rfl⟩

/-- The encoded shape of `FVD`. -/
theorem fvd (x y : Word) : Statement (.fvd x y) :=
  ⟨encode_length _, encode_head _, rfl, rfl, fun _ => rfl⟩

/-- The encoded shape of `FVT`. -/
theorem fvt : Statement (.fvt) :=
  ⟨encode_length _, encode_head _, rfl, rfl, fun _ => rfl⟩

/-- The encoded shape of `OSR`. -/
theorem osr (a : BitVec 4) : Statement (.osr a) :=
  ⟨encode_length _, encode_head _, rfl, rfl, fun _ => rfl⟩

/-- The encoded shape of `OSS`. -/
theorem oss (a : BitVec 4) (b : Block) : Statement (.oss a b) :=
  ⟨encode_length _, encode_head _, rfl, rfl, fun h => fits_length h.2⟩

/-- The encoded shape of `OSA`. -/
theorem osa (a : BitVec 4) (b : Block) : Statement (.osa a b) :=
  ⟨encode_length _, encode_head _, rfl, rfl, fun h => fits_length h⟩

/-- The encoded shape of `OSZ`. -/
theorem osz : Statement (.osz) :=
  ⟨encode_length _, encode_head _, rfl, rfl, fun _ => rfl⟩

/-- The encoded shape of `QEN`. -/
theorem qen (g : Family) (b : Block) : Statement (.qen g b) :=
  ⟨encode_length _, encode_head _, rfl, by cases g <;> rfl, fun h => fits_length h⟩

/-- The encoded shape of `QDE`. -/
theorem qde : Statement (.qde) :=
  ⟨encode_length _, encode_head _, rfl, rfl, fun _ => rfl⟩

/-- The encoded shape of `QOC`. -/
theorem qoc : Statement (.qoc) :=
  ⟨encode_length _, encode_head _, rfl, rfl, fun _ => rfl⟩

/-- The encoded shape of `QTS`. -/
theorem qts : Statement (.qts) :=
  ⟨encode_length _, encode_head _, rfl, rfl, fun _ => rfl⟩

/-- The encoded shape of `QRS`. -/
theorem qrs : Statement (.qrs) :=
  ⟨encode_length _, encode_head _, rfl, rfl, fun _ => rfl⟩

/-- The encoded shape of `DSE`. -/
theorem dse (x y : Word) : Statement (.dse x y) :=
  ⟨encode_length _, encode_head _, rfl, rfl, fun _ => rfl⟩

/-- The encoded shape of `DSZ`. -/
theorem dsz : Statement (.dsz) :=
  ⟨encode_length _, encode_head _, rfl, rfl, fun _ => rfl⟩

/-- The encoded shape of `FBC`. -/
theorem fbc : Statement (.fbc) :=
  ⟨encode_length _, encode_head _, rfl, rfl, fun _ => rfl⟩

/-- The encoded shape of `FBU`. -/
theorem fbu (x : Word) : Statement (.fbu x) :=
  ⟨encode_length _, encode_head _, rfl, rfl, fun _ => rfl⟩

/-- The encoded shape of `FBR`. -/
theorem fbr : Statement (.fbr) :=
  ⟨encode_length _, encode_head _, rfl, rfl, fun _ => rfl⟩

/-- The encoded shape of `PCY`. -/
theorem pcy (x : Word) (b : Block) : Statement (.pcy x b) :=
  ⟨encode_length _, encode_head _, rfl, rfl, fun h => fits_length h⟩

/-- The encoded shape of `CCY`. -/
theorem ccy : Statement (.ccy) :=
  ⟨encode_length _, encode_head _, rfl, rfl, fun _ => rfl⟩

/-- The encoded shape of `INIT`. -/
theorem init : Statement (.init) :=
  ⟨encode_length _, encode_head _, rfl, rfl, fun _ => rfl⟩

/-- The encoded shape of `RDS`. -/
theorem rds (n : BitVec 16) : Statement (.rds n) :=
  ⟨encode_length _, encode_head _, rfl, rfl, fun _ => rfl⟩

end Sys2Proof.Laws.EncodedShape
end

