-- ==== Sys2Proof/Laws/Queue.lean ====
section
/-! SUPPORT. The geometry of the ring: where the queued frames lie, and what a state with the ring invariant can read and write. -/

namespace Sys2Proof.Machine

/-- A cell of a slot of the ring lies in space `SLOT` (R60). -/
theorem inSlotSpace_of_lt {cfg : Config} {i j : Nat} (hi : i < cfg.nSlots) (hj : j < cfg.frameMax) :
    inSlotSpace cfg (slotCell cfg i j) := by
  have : (i + 1) * cfg.frameMax ≤ cfg.nSlots * cfg.frameMax := Nat.mul_le_mul_right _ hi
  have h2 : (i + 1) * cfg.frameMax = i * cfg.frameMax + cfg.frameMax := by rw [Nat.add_mul, Nat.one_mul]
  simp only [inSlotSpace, slotCell]
  omega

/-- Cells of different slots differ (R67). -/
theorem slotCell_ne {cfg : Config} {i i' j j' : Nat} (hi : i ≠ i') (hj : j < cfg.frameMax) (hj' : j' < cfg.frameMax) :
    slotCell cfg i j ≠ slotCell cfg i' j' := by
  intro h
  apply hi
  have h1 : (i * cfg.frameMax + j) / cfg.frameMax = i := by
    rw [Nat.mul_comm, Nat.mul_add_div (by omega), Nat.div_eq_of_lt hj, Nat.add_zero]
  have h2 : (i' * cfg.frameMax + j') / cfg.frameMax = i' := by
    rw [Nat.mul_comm, Nat.mul_add_div (by omega), Nat.div_eq_of_lt hj', Nat.add_zero]
  rw [← h1, ← h2]
  exact congrArg (· / cfg.frameMax) h

/-- Cells of one slot differ. -/
theorem slotCell_ne_right {cfg : Config} {i j j' : Nat} (h : j ≠ j') : slotCell cfg i j ≠ slotCell cfg i j' := by
  simp only [slotCell]
  omega

/-- A queued frame lies in a slot of the ring. -/
theorem frameSlot_lt {s : State} (k : Nat) (h : 0 < s.cfg.nSlots) : frameSlot s k < s.cfg.nSlots := Nat.mod_lt _ h

/-- The oldest frame lies at the read cursor. -/
theorem frameSlot_zero {s : State} (h : s.q.rc < s.cfg.nSlots) : frameSlot s 0 = s.q.rc := Nat.mod_eq_of_lt h

/-- Two places of the ring less than a turn apart are different slots. -/
theorem ring_ne {n r a b : Nat} (hab : a < b) (hb : b - a < n) : (r + a) % n ≠ (r + b) % n := by
  intro h
  have := (Nat.modEq_iff_dvd' (show r + a ≤ r + b by omega)).mp h
  have h3 : r + b - (r + a) = b - a := by omega
  rw [h3] at this
  have := Nat.le_of_dvd (by omega) this
  omega

/-- While there is room the slot at the write cursor holds no queued frame (R74). -/
theorem frameSlot_ne_wc {s : State} {k : Nat} (hc : s.q.wc = (s.q.rc + s.q.occ) % s.cfg.nSlots)
    (hk : k < s.q.occ) (ho : s.q.occ < s.cfg.nSlots) : frameSlot s k ≠ s.q.wc := by
  rw [hc]
  exact ring_ne hk (by omega)

/-- The header of another slot is as before. -/
theorem Queue.header_set_other (q : Queue) {i j : Nat} (v : SlotHeader) (h : j ≠ i) :
    ({ q with hdr := q.hdr.set i v } : Queue).header j = q.header j := by
  simp [Queue.header, List.getD_eq_getElem?_getD, List.getElem?_set_ne (Ne.symm h)]

/-- The header written is the header read. -/
theorem Queue.header_set_same (q : Queue) {i : Nat} (v : SlotHeader) (h : i < q.hdr.length) :
    ({ q with hdr := q.hdr.set i v } : Queue).header i = v := by
  simp [Queue.header, List.getD_eq_getElem?_getD, List.getElem?_set_self h]

/-- The sum over the queued frames depends on their lengths only. -/
theorem queuedPairs_congr {s t : State} (n : Nat)
    (h : ∀ k, k < n → (t.q.header (frameSlot t k)).len = (s.q.header (frameSlot s k)).len) :
    queuedPairs t n = queuedPairs s n := by
  induction n with
  | zero => rfl
  | succ n ih =>
    simp only [queuedPairs]
    rw [ih (fun k hk => h k (by omega)), h n (by omega)]

/-- The sum over the queued frames, the oldest first. -/
theorem queuedPairs_succ (s t : State) (n : Nat)
    (h : ∀ k, k < n → (t.q.header (frameSlot t k)).len = (s.q.header (frameSlot s (k + 1))).len) :
    queuedPairs s (n + 1) = (s.q.header (frameSlot s 0)).len + queuedPairs t n := by
  induction n with
  | zero => simp [queuedPairs]
  | succ n ih =>
    have := ih (fun k hk => h k (by omega))
    rw [queuedPairs, this, queuedPairs, h n (by omega), Nat.add_assoc]

/-- With the ring invariant and room, a block that fits is written. -/
theorem RingHolds.write {s : State} (h : RingHolds s) {b : Block} (hb : b.length ≤ s.cfg.frameMax) :
    ∃ m, slotWriteBlock s.cfg s.q.data s.q.wc 0 b = .ok m ∧
      (∀ j, j < b.length → m.read (slotCell s.cfg s.q.wc j) = b[j]?) ∧
      (∀ a, (∀ j, j < b.length → a ≠ slotCell s.cfg s.q.wc j) → m.read a = s.q.data.read a) := by
  obtain ⟨m, hm⟩ := slotWriteBlock_isOk (cfg := s.cfg) (i := s.q.wc) (j := 0) b s.q.data
    (fun k hk => inSlotSpace_of_lt h.writeCursor (by omega))
  have := slotWriteBlock_read b hm
  simp only [Nat.zero_add] at this
  exact ⟨m, hm, this⟩

/-- With the ring invariant and a frame, the oldest frame is read. -/
theorem RingHolds.readOldest {s : State} (h : RingHolds s) (ho : 0 < s.q.occ) :
    ∃ b, slotReadBlock s.cfg s.q.data s.q.rc 0 (s.q.header s.q.rc).len = .ok b ∧
      b.length = (s.q.header s.q.rc).len ∧
      ∀ j, j < (s.q.header s.q.rc).len → s.q.data.read (slotCell s.cfg s.q.rc j) = b[j]? := by
  have hf := h.frames 0 ho
  rw [frameSlot_zero h.readCursor] at hf
  obtain ⟨-, hw, hs⟩ := hf
  generalize (s.q.header s.q.rc).len = n at hw hs
  obtain ⟨b, hl, hr⟩ : ∃ b : Block, b.length = n ∧
      ∀ j, j < n → s.q.data.read (slotCell s.cfg s.q.rc j) = b[j]? := by
    refine ⟨(List.range n).map fun j => (slotPair s s.q.rc j).getD Pair.zero, by simp, fun j hj => ?_⟩
    obtain ⟨x, hx⟩ := Option.ne_none_iff_exists'.mp (hs j hj)
    have hx' : s.q.data.read (slotCell s.cfg s.q.rc j) = some x := hx
    simp [List.getElem?_range hj, hx, hx']
  subst hl
  refine ⟨b, slotReadBlock_of_read b (fun k hk => inSlotSpace_of_lt h.readCursor (by omega)) ?_, rfl, hr⟩
  intro k hk
  rw [Nat.zero_add]
  exact hr k hk

end Sys2Proof.Machine
end

