-- ==== Sys2Proof/Tests/Slice0.lean ====
section
/-! SUPPORT. The model's own tests: ill-formed terms refused, words written out from the spec's encoding, the numbers of spec/95_test_vectors.md, and for each statement with hypotheses a state and operands that meet them. -/

namespace Sys2Proof.Tests

open Sys2Proof Sys2Proof.Machine

/-! Well-formedness: one ill-formed term for each check. -/

theorem test_oss_empty_refused : (Instr.oss 1 []).wellFormed = false := by decide

theorem test_oss_long_refused (b : Block) (h : b.length = 65536) : (Instr.oss 1 b).wellFormed = false := by
  simp [Instr.wellFormed, h]

theorem test_osa_long_refused (b : Block) (h : b.length = 65536) : (Instr.osa 2 b).wellFormed = false := by
  simp [Instr.wellFormed, h]

theorem test_qen_long_refused (b : Block) (h : b.length = 65536) : (Instr.qen .f48 b).wellFormed = false := by
  simp [Instr.wellFormed, h]

theorem test_pcy_long_refused (b : Block) (h : b.length = 65536) : (Instr.pcy 0 b).wellFormed = false := by
  simp [Instr.wellFormed, h]

/-! Decoding: the words of spec/30_encoding.md section 7 and 95_test_vectors.md E1 to E19. -/

theorem test_decode_fvo : decode [0x10000000, 0x00020000, 0x00008000] = .ok (.fvo 131072 32768, []) := by rfl
theorem test_decode_fvd : decode [0x11000000, 0x0000BB80, 0x00000010] = .ok (.fvd 48000 16, []) := by rfl
theorem test_decode_fvt : decode [0x12000000] = .ok (.fvt, []) := by rfl
theorem test_decode_osr : decode [0x20200000] = .ok (.osr 2, []) := by rfl
theorem test_decode_oss :
    decode [0x20100002, 0x00000010, 0xFFFFFFF0, 0x00000020, 0x00000000]
      = .ok (.oss 1 [⟨16, 0xFFFFFFF0⟩, ⟨32, 0⟩], []) := by rfl
theorem test_decode_osa :
    decode [0x21400003, 1, 1, 2, 2, 3, 3] = .ok (.osa 4 [⟨1, 1⟩, ⟨2, 2⟩, ⟨3, 3⟩], []) := by rfl
theorem test_decode_osz : decode [0x22000000] = .ok (.osz, []) := by rfl
theorem test_decode_qen_f48 : decode [0x30100001, 5, 6] = .ok (.qen .f48 [⟨5, 6⟩], []) := by rfl
theorem test_decode_qen_f441 : decode [0x30000001, 5, 6] = .ok (.qen .f441 [⟨5, 6⟩], []) := by rfl
theorem test_decode_qde : decode [0x31000000] = .ok (.qde, []) := by rfl
theorem test_decode_qoc : decode [0x32000000] = .ok (.qoc, []) := by rfl
theorem test_decode_qts : decode [0x33000000] = .ok (.qts, []) := by rfl
theorem test_decode_qrs : decode [0x34000000] = .ok (.qrs, []) := by rfl
theorem test_decode_dse :
    decode [0x40000000, 0x00400000, 0xFFC00000] = .ok (.dse 0x00400000 0xFFC00000, []) := by rfl
theorem test_decode_dsz : decode [0x41000000] = .ok (.dsz, []) := by rfl
theorem test_decode_fbc : decode [0x50000000] = .ok (.fbc, []) := by rfl
theorem test_decode_fbu : decode [0x51000000, 0x05DC0000] = .ok (.fbu 98304000, []) := by rfl
theorem test_decode_fbr : decode [0x52000000] = .ok (.fbr, []) := by rfl
theorem test_decode_pcy :
    decode [0x60000001, 0x05DC0000, 0x00000100, 0x0000FF00] = .ok (.pcy 98304000 [⟨0x0100, 0xFF00⟩], []) := by rfl
theorem test_decode_ccy : decode [0x61000000] = .ok (.ccy, []) := by rfl
theorem test_decode_init : decode [0x70000000] = .ok (.init, []) := by rfl
theorem test_decode_rds : decode [0x71000005] = .ok (.rds 5, []) := by rfl

/-- E15. -/
theorem test_decode_unassigned :
    [0x00000000, 0x13000000, 0x35000000, 0x80000000, 0xFFFFFFFF].map (fun w => rowOf (Fields.ofWord w))
      = List.replicate 5 (.error .unassignedOpcode) := by rfl

/-- E16. -/
theorem test_decode_unused_field :
    [0x10000001, 0x22100000, 0x30200001, 0x200F0001].map (fun w => rowOf (Fields.ofWord w))
      = List.replicate 4 (.error .unusedFieldNotZero) := by rfl

/-- The payload of a delivered command may still be arriving. -/
theorem test_decode_incomplete : decode [0x20100002, 1, 2, 3] = .error .incomplete := by rfl

/-! States for the tests: `CFG_TEST` of spec/00_scope.md R7. -/

/-- `NOMINAL(rate, depth)` of `CFG_TEST`: rate × 65536 / 1000, the same for every depth. -/
def nominalTest (hz : Nat) : PerDepth Nat := ⟨hz * 65536 / 1000, hz * 65536 / 1000, hz * 65536 / 1000⟩

/-- `CFG_TEST`, with the numbers that R6 fixes. -/
def cfgTest : Config where
  nSlots := 16
  playThreshold := 8
  frameMax := 400
  silenceLen := 4
  stage := ⟨⟨1, [1], 1⟩, ⟨2, [9, -1], 4⟩, ⟨3, [150, -25, 3], 8⟩⟩
  fRef := 98304000
  fvWordPeriods := 64
  fvBitPeriods := 1024
  ratio := ⟨32, 48, 64⟩
  fvTolPpm := 250
  clampBound := 12582912
  dsM := 2
  dsW := 4
  dsN := 8
  dsLerp := 1
  dsInBits := 25
  intBits := 32
  nominal :=
    ⟨nominalTest 44100, nominalTest 48000, nominalTest 88200, nominalTest 96000, nominalTest 176400, nominalTest 192000,
     nominalTest 352800, nominalTest 384000⟩
  fbTarget := ⟨352, 384, 704, 768, 1408, 1536, 2816, 3072⟩
  fbErrScale := 100
  fbErrLimit := 5
  fbBandPpm := 125
  fbGlitchPpm := 1000
  backpressureLevel := 15
  backpressurePairs := 1
  vol := []

/-- After a successful `INIT`, with the turn of a port. -/
def ready (x : Port) : State := { State.resetWith cfgTest with life := .ready, issuer := x }

/-- With a valid format, its signal pending. -/
def withFormat (r : Rate) (d : Depth) (s : State) : State :=
  { s with fmt := ⟨some r, some d, true⟩, fv := ⟨some r, some d, true⟩ }

/-- After `QEN 1, 2 ; ; {(1,2),(3,4)}` (Q2). -/
def withFrame (s : State) : State :=
  { s with
    q := { s.q with
      hdr := ⟨2, .f48⟩ :: List.replicate 15 ⟨0, .f441⟩
      data := [(0, ⟨1, 2⟩), (1, ⟨3, 4⟩)]
      wc := 1
      occ := 1
      total := 2 } }

/-- With the feedback seeded for 48000 Hz (F2). -/
def withFeedback (s : State) : State :=
  { withFormat .r48000 .d16 s with fb := (seedFeedback .r48000 .d16 s).fb }

/-- With words delivered on a port and one turn of it scheduled. -/
def scheduled (x : Port) (g : Grain) (ws : List Word) (s : State) : State :=
  { s.setPort x { input := ws, output := [], flight := none } with sched := [⟨x, g⟩] }

/-- The words an operation answers with; none where it does not answer. -/
def answer (i : Instr) (s : State) : List Word :=
  match exec i s with
  | .next t => (t.port s.issuer).output
  | .fault _ => []
  | .refused _ => []

/-- What an operation leaves of one piece of state. -/
def after {α : Type} (i : Instr) (s : State) (view : State → α) : Option α :=
  match exec i s with
  | .next t => some (view t)
  | .fault _ => none
  | .refused _ => none

/-- Whether a result is a next state. -/
def isNext : Result → Bool
  | .next _ => true
  | .fault _ => false
  | .refused _ => false

/-- A result that is a next state. -/
theorem exists_next {r : Result} (h : isNext r = true) : ∃ t, r = .next t := by
  cases r with
  | next t => exact ⟨t, rfl⟩
  | fault e => cases h
  | refused e => cases h

/-- Sample words from numbers. -/
def samples (xs : List Int) : List Word := xs.map (BitVec.ofInt 32)

/-- A block from numbers, left and right. -/
def blockOf (xs : List (Int × Int)) : Block := xs.map fun x => ⟨BitVec.ofInt 32 x.1, BitVec.ofInt 32 x.2⟩

/-! One step of each operation, against spec/95_test_vectors.md. -/

/-- V4, first observation. -/
theorem test_fvo_first : answer (.fvo 131072 32768) (ready .p) = [1, 0x00] := by decide
/-- V4, second observation. -/
theorem test_fvo_second :
    answer (.fvo 131072 32768) { ready .p with fv := ⟨some .r48000, some .d32, false⟩ } = [0, 0xF2] := by decide
/-- V7. -/
theorem test_fvd_good : answer (.fvd 48000 16) (ready .p) = [0, 0xD2] := by decide
/-- V7: rate and depth held. -/
theorem test_fvd_bad : answer (.fvd 47999 16) (withFormat .r48000 .d24 (ready .p)) = [1, 0xA2] := by decide
/-- V7. -/
theorem test_fvt_takes : answer .fvt (withFormat .r48000 .d16 (ready .p)) = [0, 1] := by decide
/-- V6. -/
theorem test_fvt_empty : answer .fvt (ready .p) = [0, 0] := by decide
/-- O8. -/
theorem test_osr_clears :
    after (.osr 1) { ready .p with os := (ready .p).os.set .s1 ⟨blockOf [(16, -16), (32, 0), (0, 0), (0, 0)], 2⟩ }
      (fun t => t.os) = some (ready .p).os := by decide
/-- E18. -/
theorem test_osr_stage : answer (.osr 3) (ready .p) = [6] := by decide
/-- O3. -/
theorem test_oss_stage1 :
    answer (.oss 1 (blockOf [(16, -16), (32, 0)])) (ready .p)
      = 0x00040000 :: samples [0, 0, -1, 1, 0, 0, 7, -9] := by decide
/-- O6. -/
theorem test_oss_clamp :
    answer (.oss 0 (blockOf [(30000000, -30000000), (30000000, -30000000)])) (ready .p)
      = 0x00040000 :: samples [0, 0, 12582912, -12582912, 30000000, -30000000, 12582912, -12582912] := by decide
/-- PR5. -/
theorem test_osa_three_stages :
    answer (.osa 2 (blockOf [(65536, -65536)])) (ready .p)
      = 0x00080000 :: samples [0, 0, 0, 0, 0, 0, 0, 0, 0, 0, 0, 0, 0, 0, -24, 24] := by decide
/-- O10. -/
theorem test_osa_rate : answer (.osa 9 [⟨1, 1⟩]) (ready .p) = [1] := by decide
/-- R145. -/
theorem test_osz_clears :
    after .osz { ready .p with os := (ready .p).os.set .s0 ⟨blockOf [(5, 6), (7, 8)], 1⟩ } (fun t => t.os)
      = some (ready .p).os := by decide
/-- Q2. -/
theorem test_qen_stores :
    after (.qen .f48 [⟨1, 2⟩, ⟨3, 4⟩]) (ready .p) (fun t => t.q) = some (withFrame (ready .p)).q := by decide
/-- Q4. -/
theorem test_qen_empty : answer (.qen .f48 []) (ready .p) = [7] := by decide
/-- Q2. -/
theorem test_qde_frame : answer .qde (withFrame (ready .c)) = [0x00020000, 1, 1, 2, 3, 4] := by decide
/-- Q1. -/
theorem test_qde_empty : answer .qde (ready .c) = [3, 0] := by decide
/-- Q2. -/
theorem test_qoc_count : answer .qoc (withFrame (ready .p)) = [0, 1] := by decide
/-- Q2. -/
theorem test_qts_count : answer .qts (withFrame (ready .c)) = [0, 2] := by decide
/-- Q7. -/
theorem test_qrs_resets :
    after .qrs (withFrame (ready .p)) (fun t => (t.q.hdr, t.q.wc, t.q.rc, t.q.occ, t.q.total))
      = some (List.replicate 16 ⟨0, .f441⟩, 0, 0, 0, 0) := by decide
/-- D5. -/
theorem test_dse_words : answer (.dse 0xFFFFFE80 0) (ready .c) = [0, 0x88888978, 0x88888888] := by decide
/-- D10: `DS_M` 1, `DS_LERP` 0. -/
theorem test_dse_overflow :
    (answer (.dse 2147483647 0)
      { State.resetWith { cfgTest with dsM := 1, dsLerp := 0 } with life := .ready, issuer := .c }).head? = some 9 := by
  decide
/-- D11. -/
theorem test_dsz_resets :
    after .dsz { ready .c with ds := ⟨⟨[4194304, 4194304], 7⟩, ⟨[0, 1], 8⟩, false⟩ } (fun t => t.ds)
      = some (ready .c).ds := by decide
/-- F2. -/
theorem test_fbc_seeds :
    after .fbc (withFormat .r44100 .d24 (ready .p)) (fun t => t.fb)
      = some ⟨2890137, 2890137, 2889776, 2890498, 352, 0, false, true⟩ := by decide
/-- F3. -/
theorem test_fbu_clamped : answer (.fbu 98304000) (withFeedback (ready .p)) = [0, 3146121] := by decide
/-- F4. -/
theorem test_fbu_glitch :
    answer (.fbu 98402305)
      { withFeedback (ready .p) with fb := ⟨3146121, 3145728, 3145335, 3146121, 384, 98304000, true, true⟩ }
      = [4, 3146121] := by decide
/-- F3. -/
theorem test_fbr_reads : answer .fbr (withFeedback (ready .t)) = [0, 3145728] := by decide
/-- PR1: the queue and the cascade after step 3. -/
theorem test_pcy_queues :
    after (.pcy 98304000 [⟨0x0100, 0xFF00⟩]) (withFormat .r48000 .d16 (ready .p))
      (fun t => (t.q.header 0, t.q.data.read 7, [t.os.s0.cur, t.os.s1.cur, t.os.s2.cur, t.fb.value]))
      = some (⟨8, .f48⟩, some ⟨0xFFFFFFE8, 24⟩, [1, 2, 4, 3146121]) := by decide
/-- P5. -/
theorem test_pcy_no_format : answer (.pcy 98304000 [⟨0, 0⟩]) (ready .p) = [1] := by decide
/-- P9. -/
theorem test_ccy_silence : answer .ccy (ready .c) = 0x00040003 :: List.replicate 8 0x88888888 := by decide
/-- R228 line 4, on the frame of Q2 while playing. -/
theorem test_ccy_plays :
    after .ccy { withFrame (ready .c) with mute := .playing } (fun t => (t.q.rc, t.q.occ, t.family, t.emitted.length))
      = some (1, 0, .f48, 2) := by decide
/-- P2. -/
theorem test_init_again : answer .init (ready .p) = [6] := by decide
/-- P4. -/
theorem test_init_config :
    answer .init (State.resetWith { cfgTest with dsM := 4 }) = [5] := by decide
/-- P3. -/
theorem test_rds_config : answer (.rds 13) (ready .t) = [0, 0x00040190] := by decide
/-- E19. -/
theorem test_rds_reserved : answer (.rds 14) (ready .t) = [6, 0] := by decide


/-! Witnesses: for each statement with hypotheses, a state and operands that meet them, one for each clause. -/

/-- With an operation in flight on a port. -/
def inFlight (x : Port) (f : Flight) (s : State) : State := s.setPort x { s.port x with flight := some f }

/-- A ring of one-pair frames: `n` queued, the oldest in slot `rc`. -/
def filled (rc n : Nat) (s : State) : State :=
  { s with
    q := { s.q with
      hdr := List.replicate 16 ⟨1, .f48⟩
      data := (List.range 16).map fun i => (400 * i, ⟨1, 2⟩)
      wc := (rc + n) % 16
      rc := rc
      occ := n
      total := n } }

/-- A ring whose fields are checked one by one holds the ring invariant. -/
theorem ringHolds_of {s : State}
    (h : s.q.hdr.length = s.cfg.nSlots ∧ s.q.wc < s.cfg.nSlots ∧ s.q.rc < s.cfg.nSlots ∧ s.q.occ ≤ s.cfg.nSlots ∧
      s.q.wc = (s.q.rc + s.q.occ) % s.cfg.nSlots ∧ s.q.total = queuedPairs s s.q.occ)
    (hf : ∀ k, k < s.q.occ → 1 ≤ (s.q.header (frameSlot s k)).len ∧ (s.q.header (frameSlot s k)).len ≤ s.cfg.frameMax ∧
      ∀ j, j < (s.q.header (frameSlot s k)).len → slotPair s (frameSlot s k) j ≠ none)
    (hp : ∀ f, s.portP.flight = some f → ProducerFlight s f) (hc : ∀ f, s.portC.flight = some f → ConsumerFlight s f)
    (ht : s.portT.flight = none) : RingHolds s :=
  ⟨h.1, h.2.1, h.2.2.1, h.2.2.2.1, h.2.2.2.2.1, h.2.2.2.2.2, hf, hp, hc, ht⟩

/-- No operation in flight: nothing is asked of it. -/
theorem nothing_inFlight {P : Flight → Prop} {o : Option Flight} (h : o = none) : ∀ f, o = some f → P f := by
  intro f hf
  rw [h] at hf
  cases hf

theorem configOk_cfgTest : configOk cfgTest = true := by decide

/-- A `READY` state of `CFG_TEST` has the lifecycle invariant. -/
theorem lifecycle_of {s : State} (h : s.life = .ready) (hc : s.cfg = cfgTest) : LifecycleInv s :=
  ⟨fun _ => by rw [hc]; exact configOk_cfgTest, fun hl => absurd h hl⟩

/-- A `READY` state of `CFG_TEST` whose ring invariant holds. -/
theorem ringInv_of {s : State} (h : s.life = .ready) (hc : s.cfg = cfgTest) (hl : s.q.lock = .free) (hw : s.q.data.wf)
    (hr : RingHolds s) : RingInv s :=
  ⟨lifecycle_of h hc, hl, hw, fun _ => hr, fun hn => absurd h hn⟩

/-- The ring invariant of a concrete state with nothing in flight. -/
theorem ring_of {s : State}
    (h : s.q.hdr.length = s.cfg.nSlots ∧ s.q.wc < s.cfg.nSlots ∧ s.q.rc < s.cfg.nSlots ∧ s.q.occ ≤ s.cfg.nSlots ∧
      s.q.wc = (s.q.rc + s.q.occ) % s.cfg.nSlots ∧ s.q.total = queuedPairs s s.q.occ)
    (hf : ∀ k, k < s.q.occ → 1 ≤ (s.q.header (frameSlot s k)).len ∧ (s.q.header (frameSlot s k)).len ≤ s.cfg.frameMax ∧
      ∀ j, j < (s.q.header (frameSlot s k)).len → slotPair s (frameSlot s k) j ≠ none)
    (hn : s.portP.flight = none ∧ s.portC.flight = none ∧ s.portT.flight = none) : RingHolds s :=
  ringHolds_of h hf (nothing_inFlight hn.1) (nothing_inFlight hn.2.1) hn.2.2

/-- A result that is a next state of which something holds. -/
theorem exists_next_with {r : Result} (p : State → Bool)
    (h : (match r with | .next t => p t | .fault _ => false | .refused _ => false) = true) :
    ∃ t, r = .next t ∧ p t = true := by
  cases r with
  | next t => exact ⟨t, rfl, h⟩
  | fault e => cases h
  | refused e => cases h

/-! Encoding and the step. -/

theorem pcy_longest {b : Block} (h : b.length = 65535) : (Instr.pcy 0 b).WellFormed := by
  simp [Instr.WellFormed, h]

theorem witness_DecodeEncodeAgree :
    (Instr.oss 15 [⟨1, 2⟩]).WellFormed ∧ (Instr.qen .f441 []).WellFormed ∧
    ∃ b : Block, b.length = 65535 ∧ (Instr.pcy 0 b).WellFormed :=
  ⟨(Instr.wellFormed_iff _).mp rfl, (Instr.wellFormed_iff _).mp rfl, List.replicate 65535 Pair.zero,
   List.length_replicate, pcy_longest List.length_replicate⟩

theorem witness_DecodedCommandIsItsEncoding :
    decode [0x30100001, 5, 6, 0x12000000] = .ok (.qen .f48 [⟨5, 6⟩], [0x12000000]) := by rfl

theorem witness_RowsAreTheOpcodeMap :
    rowOf (Fields.ofWord 0x20100000) = .ok .osr ∧ rowOf (Fields.ofWord 0x20100001) = .ok .oss ∧
    rowOf (Fields.ofWord 0x13000000) = .error .unassignedOpcode ∧
    rowOf (Fields.ofWord 0x20200001) = .ok .oss ∧ rowOf (Fields.ofWord 0x10000001) = .error .unusedFieldNotZero := by
  decide

theorem witness_UnmatchedWordIsConsumedAlone :
    (∀ w, let s := scheduled .p .whole [w, 5] (ready .p)
      s.sched = [⟨.p, .whole⟩] ∧ (s.port .p).flight = none ∧ (s.port .p).input = [w, 5]) ∧
    rowOf (Fields.ofWord 0x13000000) = .error .unassignedOpcode ∧
    rowOf (Fields.ofWord 0x10000001) = .error .unusedFieldNotZero :=
  ⟨fun _ => ⟨rfl, rfl, rfl⟩, by decide, by decide⟩

theorem witness_StepRunsDecodedInstruction :
    (∀ g, let s := scheduled .p g [0x60000001, 1, 2, 3, 0x12000000] (ready .p)
      s.sched = [⟨.p, g⟩] ∧ (s.port .p).flight = none) ∧
    decode [0x60000001, 1, 2, 3, 0x12000000] = .ok (.pcy 1 [⟨2, 3⟩], [0x12000000]) ∧
    (Instr.pcy 1 [⟨2, 3⟩]).WellFormed :=
  ⟨fun _ => ⟨rfl, rfl⟩, by rfl, (Instr.wellFormed_iff _).mp rfl⟩

theorem witness_StepContinuesOrWaits :
    (ready .p).sched = [] ∧
    ((scheduled .c .single [] (ready .p)).port .c).flight = none ∧ decode [] = .error .noCommand ∧
    decode [0x20100002, 1] = .error .incomplete ∧
    ((inFlight .c .ccyMute (scheduled .c .single [] (ready .p))).port .c).flight = some .ccyMute := by
  decide

theorem witness_WholeOperationIsItsSteps :
    Instr.fvt.row ∉ [Row.qen, .qde, .fbu, .pcy, .ccy] ∧ Instr.ccy.row ∈ [Row.qen, .qde, .fbu, .pcy, .ccy] ∧
    ((ready .p).port (ready .p).issuer).flight = none := by
  decide

theorem witness_ResetRegisters :
    let s : State := { State.resetWith cfgTest with sched := [⟨.c, .whole⟩] }
    s.sched = [⟨.c, .whole⟩] ∧ ∀ x, (s.port x).input = [] ∧ (s.port x).flight = none := by
  refine ⟨rfl, fun x => ?_⟩
  cases x <;> exact ⟨rfl, rfl⟩

theorem witness_WrongPortIsRefused :
    (ready .c).issuer ∉ ports (Instr.qen .f48 []).row ∧ (State.resetWith cfgTest).issuer ∉ ports Instr.ccy.row ∧
    (ready .t).issuer ∉ ports (Instr.dse 0 0).row := by
  decide

theorem witness_NotReadyIsRefused :
    (∀ l ∈ [Life.uninit, .failed], let s : State := { ready .t with life := l }
      s.issuer ∈ ports Instr.fbr.row ∧ (s.life = .uninit ∨ s.life = .failed)) ∧
    Instr.fbr.row ≠ .init ∧ Instr.fbr.row ≠ .rds := by
  decide

theorem witness_EveryOperationAnswersOnce :
    (∃ t, exec .qde (withFrame (ready .c)) = .next t) ∧ (∃ t, exec .init (State.resetWith cfgTest) = .next t) :=
  ⟨exists_next (by decide), exists_next (by decide)⟩

/-! The format validator. -/

theorem witness_CandidateRate :
    (131072 : Word) ≠ 0 ∧ (41999 : Nat) < 42000 ∧
    ((cfgTest.fRef : Int) * cfgTest.fvWordPeriods - Rate.r48000.hz * (131072 : Word).toNat).natAbs * 1000000
      ≤ 41999 * Rate.r48000.hz * (131072 : Word).toNat ∧
    candRate cfgTest 131040 = some .r48000 ∧ candRate cfgTest 131039 = none ∧
    candRate cfgTest 131104 = some .r48000 ∧ candRate cfgTest 131105 = none := by
  decide

theorem witness_CandidateDepth :
    configOk cfgTest = true ∧ candDepth cfgTest 95 32 = some .d24 ∧ candDepth cfgTest 97 32 = none ∧
    candDepth cfgTest 0 32 = none ∧ candDepth cfgTest 95 0 = none := by
  decide

theorem witness_FvoObserves :
    (ready .c).issuer ≠ .p ∧
    (∀ v ∈ [false, true],
      let s : State := { ready .p with fmt := ⟨some .r48000, some .d32, v⟩, fv := ⟨some .r48000, some .d32, false⟩ }
      s.issuer = .p ∧ s.life = .ready ∧ candRate s.cfg 131072 = s.fv.prevRate ∧
        candDepth s.cfg 131072 32768 = s.fv.prevDepth ∧ candRate s.cfg 131072 ≠ none ∧
        candDepth s.cfg 131072 32768 ≠ none) ∧
    candRate cfgTest 131072 ≠ (ready .p).fv.prevRate := by
  decide

theorem witness_FvdDeclares :
    (ready .t).issuer ≠ .p ∧ Ready .p (ready .p) ∧ (384000 : Word).toNat = Rate.r384000.hz ∧ (32 : Word).toNat = Depth.d32.bits ∧
    ∀ (r : Rate) (d : Depth), ¬ ((384001 : Word).toNat = r.hz ∧ (32 : Word).toNat = d.bits) := by
  refine ⟨by decide, ⟨rfl, rfl⟩, rfl, rfl, fun r d => ?_⟩
  cases r <;> cases d <;> decide

theorem witness_FvtTakesTheSignal :
    (ready .c).issuer ≠ .p ∧ Ready .p (ready .p) ∧ (ready .p).fv.updated = false ∧
    Ready .p (withFormat .r48000 .d16 (ready .p)) ∧ (withFormat .r48000 .d16 (ready .p)).fv.updated = true := by
  decide

theorem witness_FormatInvKept :
    let s := scheduled .p .whole [0x10000000, 131072, 32768] (withFormat .r48000 .d32 (ready .p))
    FormatInv s ∧ s.fmt.valid = true ∧ ∃ t, step s = .next t :=
  ⟨fun _ => ⟨by decide, by decide, rfl, rfl⟩, rfl, exists_next (by decide)⟩

theorem witness_SignalIsRaisedOnce :
    Ready .p (ready .p) ∧ (ready .p).fmt.valid = false ∧ candRate cfgTest 131072 ≠ none ∧
    candDepth cfgTest 131072 32768 ≠ none ∧ candRate cfgTest 131072 ≠ candRate cfgTest 142663 ∧
    candDepth cfgTest 131072 32768 ≠ candDepth cfgTest 131072 43691 := by
  decide

/-! The cascade. -/

/-- A cascade that has run. -/
def usedCascade (s : State) : State := { s with os := ⟨⟨blockOf [(1, 2), (3, 4)], 1⟩, s.os.s1, s.os.s2⟩ }

theorem witness_OsrClearsOneStage :
    (ready .c).issuer ≠ .p ∧ Ready .p (ready .p) ∧ Stage.ofIndex 0 = some .s0 ∧ Stage.ofIndex 2 = some .s2 ∧ 3 ≤ (3 : BitVec 4).toNat ∧
    3 ≤ (15 : BitVec 4).toNat := by
  decide

theorem witness_OszClearsTheCascade : (ready .t).issuer ≠ .p ∧ Ready .p (usedCascade (ready .p)) := by decide

theorem witness_OssRunsOneStage :
    Ready .p (ready .p) ∧ Stage.ofIndex 2 = some .s2 ∧ List.replicate 200 Pair.zero ≠ [] ∧
    2 * (List.replicate 200 Pair.zero).length ≤ (ready .p).cfg.frameMax ∧ 3 ≤ (3 : BitVec 4).toNat ∧
    (2 : BitVec 4).toNat < 3 ∧ (ready .p).cfg.frameMax < 2 * (List.replicate 201 Pair.zero).length := by
  simp only [List.length_replicate]
  decide

theorem witness_StageIsAShiftRegister :
    (∀ cur ∈ [0, 1, 5], StageShape (2 * cfgTest.stage.s2.taps) ⟨List.replicate 6 ⟨7, 8⟩, cur⟩) ∧
    0 < cfgTest.stage.s2.taps ∧ 0 < cfgTest.stage.s0.taps ∧
    StageShape (2 * cfgTest.stage.s0.taps) (usedCascade (ready .p)).os.s0 := by
  unfold StageShape
  decide

theorem witness_StageDelaysAndClamps :
    cfgTest.clampBound < 2 ^ 31 ∧ 2147483647 < 2 ^ 31 ∧ 0 < cfgTest.stage.s2.taps ∧ StageShape (2 * cfgTest.stage.s2.taps) ⟨List.replicate 6 ⟨7, 8⟩, 5⟩ ∧
    ∀ n ∈ [0, 2, 3], n < (blockOf [(1, 2), (3, 4), (5, 6), (7, 8)]).length := by
  unfold StageShape
  decide

theorem witness_OsaRunsTheActiveStages :
    Ready .p (ready .p) ∧ (1 : BitVec 4) = Rate.r44100.code ∧ (8 : BitVec 4) = Rate.r384000.code ∧
    (List.replicate 50 Pair.zero).length * 2 ^ Rate.r44100.stages ≤ (ready .p).cfg.frameMax ∧
    (List.replicate 400 Pair.zero).length * 2 ^ Rate.r384000.stages ≤ (ready .p).cfg.frameMax ∧
    Rate.r384000.stages = 0 ∧ 8 < (9 : BitVec 4).toNat ∧ 8 < (15 : BitVec 4).toNat ∧
    (ready .p).cfg.frameMax < (List.replicate 51 Pair.zero).length * 2 ^ Rate.r44100.stages ∧
    (ready .p).cfg.frameMax < (List.replicate 401 Pair.zero).length * 2 ^ Rate.r384000.stages := by
  simp only [List.length_replicate]
  decide

theorem witness_OsaDoesNotDependOnTheCut :
    Ready .p (usedCascade (ready .p)) ∧
    (blockOf [(1, 2), (3, 4)] ++ blockOf [(5, 6)]).length * 2 ^ Rate.r48000.stages ≤ (ready .p).cfg.frameMax ∧
    Rate.r48000.stages = 3 ∧ List.replicate 50 Pair.zero ≠ [] ∧
    (List.replicate 50 Pair.zero).length * 8 ≤ (ready .p).cfg.frameMax ∧
    Rate.r88200.stages = 2 ∧ List.replicate 100 Pair.zero ≠ [] ∧
    (List.replicate 100 Pair.zero).length * 4 ≤ (ready .p).cfg.frameMax ∧
    Rate.r192000.stages = 1 ∧ List.replicate 200 Pair.zero ≠ [] ∧
    (List.replicate 200 Pair.zero).length * 2 ≤ (ready .p).cfg.frameMax := by
  simp only [List.length_replicate]
  decide

theorem witness_ResetReproducesAFreshStart :
    let s := usedCascade (ready .p)
    Ready .p s ∧ Ready .p (ready .p) ∧ (ready .p).cfg = s.cfg ∧ (ready .p).os = (State.resetWith s.cfg).os ∧ s.os ≠ (ready .p).os ∧
    Stage.ofIndex 2 = some .s2 ∧ (List.replicate 50 Pair.zero).length * 2 ^ Rate.r48000.stages ≤ s.cfg.frameMax := by
  decide

theorem witness_ShapeInvKept :
    let s := scheduled .p .whole [0x20000001, 1, 2] (usedCascade (ready .p))
    ShapeInv s ∧ ∃ t, step s = .next t := by
  refine ⟨⟨lifecycle_of rfl rfl, fun st => ?_, ⟨rfl, by decide⟩, ⟨rfl, by decide⟩⟩, exists_next (by decide)⟩
  cases st <;> exact ⟨by decide, by decide⟩

/-! The queue. -/

theorem witness_QenStoresTheBlock :
    Ready .p (filled 1 15 (ready .p)) ∧ RingHolds (filled 1 15 (ready .p)) ∧
    (filled 1 15 (ready .p)).q.occ < (filled 1 15 (ready .p)).cfg.nSlots ∧
    List.replicate 400 Pair.zero ≠ [] ∧ (List.replicate 400 Pair.zero).length ≤ (filled 1 15 (ready .p)).cfg.frameMax :=
  ⟨⟨rfl, rfl⟩, ring_of (by decide) (by decide) (by decide), by decide,
   List.cons_ne_nil _ _, by rw [List.length_replicate]; decide⟩

theorem witness_QenRefusals :
    Ready .p (ready .p) ∧ (ready .p).cfg.frameMax < (List.replicate 401 Pair.zero).length ∧
    Ready .p (filled 0 16 (ready .p)) ∧ (filled 0 16 (ready .p)).cfg.nSlots ≤ (filled 0 16 (ready .p)).q.occ ∧
    [Pair.zero] ≠ [] ∧ [Pair.zero].length ≤ (ready .p).cfg.frameMax := by
  simp only [List.length_replicate]
  decide

theorem witness_QdeReturnsTheOldestFrame :
    Ready .c (filled 15 16 (ready .c)) ∧ RingHolds (filled 15 16 (ready .c)) ∧ 0 < (filled 15 16 (ready .c)).q.occ ∧
    RingHolds (withFrame (ready .c)) ∧ 0 < (withFrame (ready .c)).q.occ ∧ (ready .c).q.occ = 0 :=
  ⟨⟨rfl, rfl⟩, ring_of (by decide) (by decide) (by decide), by decide, ring_of (by decide) (by decide) (by decide),
   by decide, rfl⟩

theorem witness_SnapshotsReadTheCounters :
    (ready .t).issuer = .t ∧ Ready .p (filled 0 16 (ready .p)) ∧ Ready .c (ready .c) ∧
    RingHolds (filled 0 16 (ready .p)) :=
  ⟨rfl, ⟨rfl, rfl⟩, ⟨rfl, rfl⟩, ring_of (by decide) (by decide) (by decide)⟩

theorem witness_QrsRestoresTheQueue :
    Ready .p (withFrame (ready .p)) ∧ (withFrame (ready .p)).portC.flight = none ∧
    Ready .p (inFlight .c (.deqHeader .command) (withFrame (ready .p))) ∧
    (inFlight .c (.deqHeader .command) (withFrame (ready .p))).portC.flight ≠ none := by
  decide

/-- One slot left; the producer about to write its pair into it, the consumer reading the slot after it. -/
def bothInFlight : State :=
  inFlight .p (.enqWrite .command .f48 [⟨9, 9⟩] 0)
    (inFlight .c (.deqRead .command .f48 1 []) (filled 1 15 (ready .p)))

theorem ring_bothInFlight : RingHolds bothInFlight := by
  refine ringHolds_of (by decide) (by decide) (fun f hf => ?_) (fun f hf => ?_) rfl
  · cases hf
    exact ⟨by decide, by decide, by decide, by decide, fun j hj => absurd hj (Nat.not_lt_zero j)⟩
  · cases hf
    exact ⟨by decide, by decide, by decide, fun j hj => absurd hj (Nat.not_lt_zero j)⟩

/-- One frame queued; the producer at its commit, the consumer before its header. -/
def bothAtTheEnds : State :=
  inFlight .p (.enqCommit .command .f48 [⟨1, 2⟩]) (inFlight .c (.deqHeader .command) (filled 0 1 (ready .p)))

theorem ring_bothAtTheEnds : RingHolds bothAtTheEnds := by
  refine ringHolds_of (by decide) (by decide) (fun f hf => ?_) (fun f hf => ?_) rfl
  · cases hf
    unfold ProducerFlight PrefixStored
    decide
  · cases hf
    exact (by decide : 0 < bothAtTheEnds.q.occ)

/-- The ring invariant does not look at the schedule. -/
theorem ringInv_turns {s : State} (turns : List Turn) (h : RingInv s) : RingInv { s with sched := turns } :=
  ⟨h.1, h.2.1, h.2.2.1,
   fun hl =>
     let r := h.2.2.2.1 hl
     ⟨r.headers, r.writeCursor, r.readCursor, r.occupancy, r.cursors,
      r.total.trans (queuedPairs_congr (s := { s with sched := turns }) (t := s) _ fun _ _ => rfl), r.frames, r.producer, r.consumer, r.reader⟩,
   h.2.2.2.2⟩

/-- A full ring whose oldest frame the consumer has read and not yet released. -/
def readWhole : State := inFlight .c (.deqRead .command .f48 1 [⟨1, 2⟩]) (filled 15 16 (ready .p))

theorem ring_readWhole : RingHolds readWhole := by
  refine ringHolds_of (by decide) (by decide) (nothing_inFlight rfl) (fun f hf => ?_) rfl
  cases hf
  unfold ConsumerFlight PrefixStored
  decide

/-- The whole operations; and of the steps: a payload step of the producer and of the consumer, their commits, a `QRS`, and
a turn of the reader. -/
theorem witness_QueueIsFifo :
    (Ready .p (withFrame (ready .p)) ∧ RingHolds (withFrame (ready .p)) ∧
      (withFrame (ready .p)).q.occ < (withFrame (ready .p)).cfg.nSlots) ∧
    (Ready .c (withFrame (ready .c)) ∧ RingHolds (withFrame (ready .c)) ∧
      frames (withFrame (ready .c)) = [(.f48, [some ⟨1, 2⟩, some ⟨3, 4⟩])]) ∧
    (∀ x, RingInv { bothInFlight with sched := [⟨x, .single⟩] }) ∧
    (∀ x ∈ [Port.p, .c, .t], isNext (step { bothInFlight with sched := [⟨x, .single⟩] }) = true) ∧
    (RingInv { bothAtTheEnds with sched := [⟨.p, .single⟩] } ∧
      ∃ t, step { bothAtTheEnds with sched := [⟨.p, .single⟩] } = .next t ∧ (t.q.occ == 2) = true) ∧
    (RingInv { readWhole with sched := [⟨.c, .single⟩] } ∧
      ∃ t, step { readWhole with sched := [⟨.c, .single⟩] } = .next t ∧ (t.q.occ == 15) = true) ∧
    RingInv (scheduled .p .whole [0x34000000] (filled 1 15 (ready .p))) ∧
      ∃ t, step (scheduled .p .whole [0x34000000] (filled 1 15 (ready .p))) = .next t ∧ (t.q.occ == 0) = true :=
  ⟨⟨⟨rfl, rfl⟩, ring_of (by decide) (by decide) (by decide), by decide⟩,
   ⟨⟨rfl, rfl⟩, ring_of (by decide) (by decide) (by decide), by decide⟩,
   fun _ => ringInv_turns _ (ringInv_of rfl rfl rfl (by decide) ring_bothInFlight),
   by decide,
   ⟨ringInv_turns _ (ringInv_of rfl rfl rfl (by decide) ring_bothAtTheEnds), exists_next_with _ (by decide)⟩,
   ⟨ringInv_turns _ (ringInv_of rfl rfl rfl (by decide) ring_readWhole), exists_next_with _ (by decide)⟩,
   ringInv_of rfl rfl rfl (by decide) (ring_of (by decide) (by decide) (by decide)), exists_next_with _ (by decide)⟩

theorem witness_PayloadSlotsDiffer :
    RingInv bothInFlight ∧ bothInFlight.portP.flight = some (.enqWrite .command .f48 [⟨9, 9⟩] 0) ∧
    bothInFlight.portC.flight = some (.deqRead .command .f48 1 []) ∧
    RingInv bothAtTheEnds ∧ bothAtTheEnds.portP.flight = some (.enqCommit .command .f48 [⟨1, 2⟩]) ∧
    bothAtTheEnds.portC.flight = some (.deqHeader .command) :=
  ⟨ringInv_of rfl rfl rfl (by decide) ring_bothInFlight, rfl, rfl,
   ringInv_of rfl rfl rfl (by decide) ring_bothAtTheEnds, rfl, rfl⟩

theorem witness_RingInvKept :
    (∃ t, step (scheduled .p .whole [0x30100001, 5, 6] (filled 1 15 (ready .p))) = .next t ∧ (t.q.occ == 16) = true) ∧
    RingInv (scheduled .p .whole [0x30100001, 5, 6] (filled 1 15 (ready .p))) ∧
    RingInv { bothInFlight with sched := [⟨.p, .single⟩] } ∧
    ∃ t, step { bothInFlight with sched := [⟨.p, .single⟩] } = .next t ∧ decide (t.q.data.read 0 = some ⟨9, 9⟩) = true :=
  ⟨exists_next_with _ (by decide),
   ringInv_of rfl rfl rfl (by decide) (ring_of (by decide) (by decide) (by decide)),
   ringInv_turns _ (ringInv_of rfl rfl rfl (by decide) ring_bothInFlight),
   exists_next_with _ (by decide)⟩

/-- `QRS` as the producer's next command while the consumer is before a header. -/
def racing : State :=
  { inFlight .c (.deqHeader .command) (filled 0 1 (ready .p)) with
    portP := ⟨[0x34000000], [], none⟩, sched := [⟨.p, .whole⟩] }

theorem witness_OnlyTheResetRaceFaults : 0 < racing.q.occ ∧ RingInv racing ∧ step racing = .fault .qrsRace := by
  refine ⟨by decide, ringInv_of rfl rfl rfl (by decide)
    (ringHolds_of (by decide) (by decide) (nothing_inFlight rfl) (fun f hf => ?_) rfl), rfl⟩
  cases hf
  exact (by decide : 0 < racing.q.occ)

/-! The encoder. -/

/-- `DS_M` 1 and held sub-samples: a configuration whose integrators can overflow. -/
def cfgHeld : Config := { cfgTest with dsM := 1, dsLerp := 0 }

/-- No integrators and held sub-samples. -/
def cfgPlain : Config := { cfgTest with dsM := 0, dsLerp := 0 }

/-- `READY` with another configuration. -/
def readyWith (c : Config) (x : Port) : State := { State.resetWith c with life := .ready, issuer := x }

theorem witness_DseEncodesAPair :
    Ready .c (ready .c) ∧ (∃ r, encodeChannel cfgTest (ready .c).ds.left 0xFFFFFE80 = some r) ∧
    Ready .c (readyWith cfgHeld .c) ∧ encodeChannel cfgHeld (readyWith cfgHeld .c).ds.left 2147483647 = none ∧
    encodeChannel cfgHeld (readyWith cfgHeld .c).ds.right 2147483647 = none ∧
    (freeModulator cfgPlain 0).lost = true ∧
    (∃ r, encodeChannel cfgPlain (freeModulator cfgPlain 0).left 5 = some r) ∧
    ∃ r, encodeChannel cfgPlain (freeModulator cfgPlain 0).right 5 = some r :=
  ⟨⟨rfl, rfl⟩, ⟨_, rfl⟩, ⟨rfl, rfl⟩, by decide, by decide, rfl, ⟨_, rfl⟩, ⟨_, rfl⟩⟩

theorem witness_DszResetsTheModulator :
    (ready .p).issuer ≠ .c ∧ Ready .c { ready .c with ds := ⟨⟨[1, 2], 3⟩, ⟨[4, 5], 6⟩, true⟩ } := by decide

theorem witness_ZeroInMidScaleOut :
    (∀ c ∈ [cfgTest, { cfgTest with dsW := 5, dsN := 4 }, { cfgTest with dsW := 6, dsN := 4 }],
      configOk c = true ∧ (readyWith c .c).ds = (State.resetWith c).ds) ∧ Ready .c (ready .c) ∧
    midWord { cfgTest with dsW := 5, dsN := 4 } = 0x00084210 := by
  decide

theorem witness_CodesArePacked :
    (∀ c ∈ [cfgTest, cfgHeld, { cfgTest with dsW := 6, dsN := 4 }], configOk c = true) ∧
    ∃ ch w, encodeChannel cfgTest (ready .c).ds.left 0xFFFFFE80 = some (ch, w) :=
  ⟨by decide, _, _, rfl⟩

theorem witness_SubSamplesRamp :
    configOk cfgTest = true ∧ cfgTest.dsLerp = 1 ∧ configOk cfgHeld = true ∧ cfgHeld.dsLerp = 0 ∧
    subSamples cfgTest 16 0 = [14, 12, 10, 8, 6, 4, 2, 0] ∧ subSamples cfgTest 0 8 = [1, 2, 3, 4, 5, 6, 7, 8] ∧
    subSamples cfgHeld 0 8 = List.replicate 8 8 ∧
    (encodeChannel cfgTest (ready .c).ds.left 5).isSome = true := by
  decide

theorem witness_NoiseTransfer :
    1 ≤ cfgTest.dsM ∧ subSteps cfgTest (List.replicate cfgTest.dsM 0) [100000, -100000, 0, 7] ≠ none ∧
    asr (-bias cfgTest + bias cfgTest) (qShift cfgTest) = 0 ∧
    asr ((qMax cfgTest + 1) * 2 ^ qShift cfgTest - 1 - bias cfgTest + bias cfgTest) (qShift cfgTest) = qMax cfgTest ∧
    asr (-bias cfgTest - 1 + bias cfgTest) (qShift cfgTest) < 0 ∧
    qMax cfgTest < asr ((qMax cfgTest + 1) * 2 ^ qShift cfgTest - bias cfgTest + bias cfgTest) (qShift cfgTest) := by
  decide

/-! The feedback controller. -/

theorem witness_FbcSeedsFromTheNominalValue :
    Ready .p (withFormat .r44100 .d24 (ready .p)) ∧
    (withFormat .r44100 .d24 (ready .p)).fmt = ⟨some .r44100, some .d24, true⟩ ∧ Ready .p (ready .p) ∧
    (ready .p).fmt.valid = false := by
  decide

/-- After an update at tick count 98304000. -/
def withTicks (s : State) : State :=
  { withFeedback s with fb := { (withFeedback s).fb with lastTicks := 98304000, haveLast := true } }

theorem witness_FbuUpdatesTheValue :
    (ready .p).fmt.valid = false ∧ (withFormat .r48000 .d16 (ready .p)).fb.configured = false ∧
    (∀ s ∈ [withFeedback (ready .p), withTicks (ready .p)],
      s.issuer = .p ∧ s.life = .ready ∧ s.fmt = ⟨some .r48000, some .d16, true⟩ ∧ s.fb.configured = true) ∧
    (withFeedback (ready .p)).fb.haveLast = false ∧ (withTicks (ready .p)).fb.haveLast = true ∧
    cfgTest.fbGlitchPpm * (98304000 : Word).toNat
      < (((98402305 : Word).toNat : Int) - (98304000 : Word).toNat).natAbs * 1000000 ∧
    ¬ cfgTest.fbGlitchPpm * (98304000 : Word).toNat
      < (((98402304 : Word).toNat : Int) - (98304000 : Word).toNat).natAbs * 1000000 := by
  decide

theorem witness_FbrReadsTheValue :
    (ready .c).issuer = .c ∧ Ready .p (ready .p) ∧ Ready .t (ready .t) ∧
    (let s := scheduled .p .whole [0x51000000, 5] (withFormat .r48000 .d16 (ready .p))
     s.fb.configured = false ∧ s.fb.value = 0 ∧ ∃ t, step s = .next t ∧ (!t.fb.configured) = true) :=
  ⟨rfl, ⟨rfl, rfl⟩, ⟨rfl, rfl⟩, rfl, rfl, exists_next_with _ (by decide)⟩

theorem witness_FeedbackInvKept :
    let s := scheduled .p .whole [0x51000000, 98304000] (withFeedback (ready .p))
    FeedbackInv s ∧ s.fb.configured = true ∧ ∃ t, step s = .next t ∧ (t.fb.value == 3146121) = true :=
  ⟨⟨lifecycle_of rfl rfl, by decide⟩, rfl, exists_next_with _ (by decide)⟩

/-! The cycles. -/

/-- With a valid format whose signal has been taken. -/
def takenFormat (r : Rate) (d : Depth) (s : State) : State := takeUpdated (withFormat r d s)

theorem witness_PcyEndsEarly :
    (∀ u ∈ [false, true], let s : State := { ready .p with fv := ⟨none, none, u⟩ }
      s.issuer = .p ∧ s.life = .ready ∧ s.fmt.valid = false ∧ s.fv.updated = u) ∧
    (∀ s ∈ [withFormat .r48000 .d16 (ready .p), takenFormat .r48000 .d16 (ready .p)],
      s.issuer = .p ∧ s.life = .ready ∧ s.fmt = ⟨some .r48000, some .d16, true⟩ ∧
      s.cfg.frameMax < (List.replicate 51 (0 : Word × Word)).length * 2 ^ Rate.r48000.stages) := by
  simp only [List.length_replicate]
  decide

/-- A valid format over an empty ring, a ring with one slot left and a full ring; blocks of `FRAME_MAX` pairs, of one pair
that backpressure drops, and empty. -/
theorem witness_PcyQueuesTheBlock :
    (∀ s ∈ [withFormat .r48000 .d16 (ready .p), takenFormat .r384000 .d32 (filled 1 15 (ready .p)),
        takenFormat .r48000 .d16 (filled 0 16 (ready .p))], s.issuer = .p ∧ s.life = .ready ∧ s.fmt.valid = true) ∧
    RingHolds (withFormat .r48000 .d16 (ready .p)) ∧
    RingHolds (takenFormat .r384000 .d32 (filled 1 15 (ready .p))) ∧
    RingHolds (takenFormat .r48000 .d16 (filled 0 16 (ready .p))) ∧
    (50 * 2 ^ Rate.r48000.stages ≤ cfgTest.frameMax ∧ 0 < 50 * 2 ^ Rate.r48000.stages) ∧
    1 * 2 ^ Rate.r384000.stages - 1 = 0 ∧ 0 < 2 * 2 ^ Rate.r384000.stages - 1 ∧
    cfgTest.backpressureLevel = (filled 1 15 (ready .p)).q.occ ∧ (filled 0 16 (ready .p)).q.occ = cfgTest.nSlots :=
  ⟨by decide, ring_of (by decide) (by decide) (by decide), ring_of (by decide) (by decide) (by decide),
   ring_of (by decide) (by decide) (by decide), by decide, by decide, by decide, by decide, by decide⟩

theorem witness_PcyIsItsParts :
    Ready .p (withFormat .r48000 .d16 (filled 1 15 (ready .p))) ∧
    RingHolds (withFormat .r48000 .d16 (filled 1 15 (ready .p))) ∧
    (withFormat .r48000 .d16 (filled 1 15 (ready .p))).fmt = ⟨some .r48000, some .d16, true⟩ ∧
    (List.replicate 50 Pair.zero).length * 2 ^ Rate.r48000.stages ≤ cfgTest.frameMax :=
  ⟨⟨rfl, rfl⟩, ring_of (by decide) (by decide) (by decide), rfl, by decide⟩

theorem witness_Normalisation :
    let cfg : Config := { cfgTest with vol := [(5, 9)] }
    (5, 9) ∈ cfg.vol ∧ (∀ z, (5, z) ∈ cfg.vol → z = 9) ∧ ∀ y, ((6 : BitVec 24), y) ∉ cfg.vol := by
  simp

theorem witness_CcyEmitsSilence :
    (Ready .c { ready .c with ds := ⟨⟨[4194304, 5], 7⟩, ⟨[0, 1], 8⟩, false⟩ } ∧ (ready .c).mute = .muted ∧
      (ready .c).q.occ < cfgTest.playThreshold) ∧
    Ready .c (filled 0 7 (ready .c)) ∧ configOk (ready .c).cfg = true ∧ (filled 0 7 (ready .c)).mute = .muted ∧
    (filled 0 7 (ready .c)).q.occ < cfgTest.playThreshold ∧ (filled 0 7 (ready .c)).ds = Modulator.zero cfgTest ∧
    Ready .c { ready .c with mute := .playing } ∧ ({ ready .c with mute := .playing } : State).q.occ = 0 ∧
    RingHolds { ready .c with mute := .playing } :=
  ⟨⟨⟨rfl, rfl⟩, rfl, by decide⟩, ⟨rfl, rfl⟩, configOk_cfgTest, rfl, by decide, rfl, ⟨rfl, rfl⟩, rfl, ring_of (by decide) (by decide) (by decide)⟩

/-- The loudest frame, with integrators that can overflow. -/
def loud : State :=
  { readyWith cfgHeld .c with
    mute := .playing
    q := { (readyWith cfgHeld .c).q with
      hdr := List.replicate 16 ⟨1, .f48⟩, data := [(0, ⟨2147483647, 0⟩)], wc := 1, occ := 1, total := 1 } }

/-- Both ends of a cycle that plays a frame: the pairs of the frame encoded one by one, and an overflow. -/
theorem witness_CcyPlaysAFrame :
    (Ready .c (filled 0 8 (ready .c)) ∧ RingHolds (filled 0 8 (ready .c)) ∧
      cfgTest.playThreshold ≤ (filled 0 8 (ready .c)).q.occ ∧ 0 < (filled 0 8 (ready .c)).q.occ) ∧
    (∃ u, execAll (encodeOps false [⟨1, 2⟩]) (ready .c) = .next u ∧
      (u.portC.output == encodeAnswers false [(0x88888888, 0x88888888)]) = true) ∧
    (Ready .c loud ∧ RingHolds loud ∧ loud.mute = .playing ∧ 0 < loud.q.occ) ∧
    ∃ u, execAll (encodeOps false [⟨2147483647, 0⟩]) loud = .next u ∧
      (u.portC.output.head? == some (statusWord .dsOverflow 0)) = true :=
  ⟨⟨⟨rfl, rfl⟩, ring_of (by decide) (by decide) (by decide), by decide, by decide⟩, exists_next_with _ (by decide),
   ⟨⟨rfl, rfl⟩, ring_of (by decide) (by decide) (by decide), rfl, by decide⟩, exists_next_with _ (by decide)⟩

theorem witness_MuteHysteresis :
    (∃ t, step (scheduled .c .whole [0x61000000] (filled 0 8 (ready .c))) = .next t ∧ (t.mute == .playing) = true) ∧
    ∃ t, step (scheduled .c .whole [0x61000000] { ready .c with mute := .playing }) = .next t ∧
      (t.mute == .muted) = true :=
  ⟨exists_next_with _ (by decide), exists_next_with _ (by decide)⟩

/-! The system operations and the whole machine. -/

theorem witness_InitChecksTheConfiguration :
    (State.resetWith cfgTest).issuer = .p ∧ (State.resetWith cfgTest).life = .uninit ∧ configOk cfgTest = true ∧
    (∀ c ∈ [{ cfgTest with nSlots := 1 }, { cfgTest with playThreshold := 16 }, { cfgTest with dsM := 4 },
        { cfgTest with fbErrScale := 0 }], configOk c = false) ∧
    (∀ c ∈ [{ cfgTest with nSlots := 255 }, { cfgTest with playThreshold := 15 }, { cfgTest with dsM := 3 }],
      configOk c = true) ∧
    (ready .p).issuer = .p ∧ (ready .p).life ≠ .uninit := by
  decide

theorem witness_RdsReadsARegister :
    (0 : BitVec 16).toNat ≤ 13 ∧ (13 : BitVec 16).toNat ≤ 13 ∧ 13 < (14 : BitVec 16).toNat ∧
    13 < (65535 : BitVec 16).toNat ∧
    let c : Config := { cfgTest with nSlots := 255, playThreshold := 254, frameMax := 65535, silenceLen := 65535 }
    configOk c = true ∧ c.nSlots < 256 ∧ c.playThreshold < 256 ∧ c.dsM < 8 ∧ c.dsW < 8 ∧ c.dsN < 16 ∧ c.dsLerp < 2 ∧
      c.frameMax < 65536 ∧ c.silenceLen < 65536 := by
  decide

theorem witness_OperationsWriteOnlyTheirRow :
    (∃ t, exec (.qen .f48 [⟨1, 2⟩]) (ready .p) = .next t ∧ (t.q.total - (ready .p).q.total == 1) = true) ∧
    (Instr.qen .f48 [⟨1, 2⟩]).row = .qen ∧ Instr.qrs.row = .qrs ∧
    (∃ t, exec .qrs (withFrame (ready .p)) = .next t ∧ (t.q.data.length == 2) = true) ∧
    ∃ t, exec .ccy (ready .c) = .next t ∧ (t.emitted.length == 4) = true :=
  ⟨exists_next_with _ (by decide), rfl, rfl, exists_next_with _ (by decide), exists_next_with _ (by decide)⟩

theorem witness_AgentsWriteOnlyTheirOwn :
    (RingInv (scheduled .c .whole [0x31000000] (filled 15 16 (ready .p))) ∧
      ∃ t, step (scheduled .c .whole [0x31000000] (filled 15 16 (ready .p))) = .next t ∧ (t.q.rc == 0) = true) ∧
    (RingInv (scheduled .p .whole [0x34000000] (filled 1 15 (ready .p))) ∧
      ∃ t, step (scheduled .p .whole [0x34000000] (filled 1 15 (ready .p))) = .next t ∧ (t.q.rc == 0) = true) ∧
    RingInv (scheduled .t .whole [0x52000000] (filled 1 15 (ready .p))) ∧
      ∃ t, step (scheduled .t .whole [0x52000000] (filled 1 15 (ready .p))) = .next t :=
  ⟨⟨ringInv_of rfl rfl rfl (by decide) (ring_of (by decide) (by decide) (by decide)), exists_next_with _ (by decide)⟩,
   ⟨ringInv_of rfl rfl rfl (by decide) (ring_of (by decide) (by decide) (by decide)), exists_next_with _ (by decide)⟩,
   ringInv_of rfl rfl rfl (by decide) (ring_of (by decide) (by decide) (by decide)), exists_next (by decide)⟩

theorem witness_LifecycleChangesOnlyByInit :
    LifecycleInv (scheduled .p .whole [0x70000000] (State.resetWith cfgTest)) ∧
    (∃ t, step (scheduled .p .whole [0x70000000] (State.resetWith cfgTest)) = .next t ∧ (t.life == .ready) = true) ∧
    ∃ t, step (scheduled .p .whole [0x70000000] (State.resetWith { cfgTest with dsM := 4 })) = .next t ∧
      (t.life == .failed) = true :=
  ⟨⟨by decide, fun _ => ⟨rfl, rfl, rfl⟩⟩, exists_next_with _ (by decide), exists_next_with _ (by decide)⟩

end Sys2Proof.Tests
end

section
/-! Proofs about the format validator (spec/40_format_validator.md): the refusal on a wrong port, what one operation of
the validator writes and answers, and the statements of R122 to R125. -/

namespace Sys2Proof

/-! The words of an operation without fields. -/

/-- The match column of R94 is the row's opcode with every other field 0. -/
theorem Row.toWord_op (row : Row) : Fields.toWord ⟨row.op, 0, 0, 0⟩ = row.pattern := by
  cases row <;> decide

/-- The words of an operation of format `Z` (R93): its row's match word and its operand words. -/
theorem encode_of_formatZ {i : Instr} (h : i.row.format = .z) : encode i = i.row.pattern :: i.operands := by
  have hbare : i.fieldA = 0 ∧ i.fieldImm = 0 ∧ i.payload = [] := by
    cases i <;> simp [Instr.row, Row.format, Instr.fieldA, Instr.fieldImm, Instr.payload] at h ⊢
  obtain ⟨ha, himm, hpayload⟩ := hbare
  simp [encode, Instr.fields, ha, himm, hpayload, Block.words, ← Row.toWord_op]

/-! Searches among the rates and the depths. -/

/-- A search that at most one element passes finds an element exactly when it passes. -/
theorem find?_eq_some_iff_of_unique {α : Type} {p : α → Bool} {l : List α} {a : α} (ha : a ∈ l)
    (unique : ∀ b, p b = true → p a = true → b = a) : l.find? p = some a ↔ p a = true := by
  refine ⟨List.find?_some, fun hp => ?_⟩
  obtain ⟨b, hb⟩ := Option.isSome_iff_exists.mp (List.find?_isSome.mpr ⟨a, ha, hp⟩)
  rw [hb, unique b (List.find?_some hb) hp]

/-- The search list of the rates has all of them. -/
theorem Rate.mem_all (r : Rate) : r ∈ Rate.all := by cases r <;> decide

/-- The search list of the depths has all of them. -/
theorem Depth.mem_all (d : Depth) : d ∈ Depth.all := by cases d <;> decide

/-- No two rates have the same number of Hz, so a declared number names one rate (R124). -/
theorem Rate.hz_injective : Function.Injective Rate.hz := by
  intro r r' h
  cases r <;> cases r' <;> simp [Rate.hz] at h ⊢

/-- No two depths have the same number of bits. -/
theorem Depth.bits_injective : Function.Injective Depth.bits := by
  intro d d' h
  cases d <;> cases d' <;> simp [Depth.bits] at h ⊢

end Sys2Proof

namespace Sys2Proof.Machine

/-! Any operation: the refusal, and how an ended operation leaves its port. -/

/-- An operation on a port that does not accept it answers `ILLEGAL` with zero result words and changes nothing
(R104, R262, R270). -/
theorem exec_wrongPort {s : State} {i : Instr} (h : s.issuer ∉ ports i.row) :
    ∃ t, exec i s = .next t ∧ Ends [] (statusWord .illegal 0 :: illegalResults i.row) [] 0 s t := by
  obtain ⟨body, hexec⟩ := exec_gated i s
  exact ⟨_, hexec.trans (State.gate_wrongPort body h), Ends.of_raise s .illegal _⟩

/-- The operations that the `P` port alone accepts are refused on another port. -/
theorem exec_notP {s : State} {i : Instr} (hi : ports i.row = [.p]) (h : s.issuer ≠ .p) :
    ∃ t, exec i s = .next t ∧ Ends [] (statusWord .illegal 0 :: illegalResults i.row) [] 0 s t :=
  exec_wrongPort (by simpa [hi] using h)

/-- An operation that does not write `sys.life` leaves the block `READY` for the next one on the same port. -/
theorem Ends.ready {written : List Item} {response : List Word} {stream : List Emission} {draws : Nat} {s t : State}
    {x : Port} (h : Ends written response stream draws s t) (hlife : Item.life ∉ written) (hs : Ready x s) :
    Ready x t :=
  ⟨h.issuer.trans hs.1, Eq.trans (h.rest .life hlife) hs.2⟩

/-- What an operation of the `P` port adds to that port's output. -/
theorem Ends.portP_output {written : List Item} {response : List Word} {stream : List Emission} {draws : Nat}
    {s t : State} (h : Ends written response stream draws s t) (hs : s.issuer = .p) :
    t.portP.output = s.portP.output ++ response := by
  have := h.output
  rwa [hs] at this

/-- A run goes on from the state in which its first operation ends. -/
theorem execAll_cons {i : Instr} {s t : State} (h : exec i s = .next t) (is : List Instr) :
    execAll (i :: is) s = execAll is t := by
  rw [execAll, h]
  rfl

/-! What the validator computes of its operands. -/

/-- The declared rate is the one with exactly that number of Hz (R124). -/
theorem declaredRate_eq_some {hz : Word} {r : Rate} : declaredRate hz = some r ↔ hz.toNat = r.hz := by
  rw [declaredRate, find?_eq_some_iff_of_unique (Rate.mem_all r), beq_iff_eq, eq_comm]
  intro r' hr' hr
  exact Rate.hz_injective ((beq_iff_eq.mp hr').trans (beq_iff_eq.mp hr).symm)

/-- The declared depth is the one with exactly that number of bits (R124). -/
theorem declaredDepth_eq_some {bits : Word} {d : Depth} : declaredDepth bits = some d ↔ bits.toNat = d.bits := by
  rw [declaredDepth, find?_eq_some_iff_of_unique (Depth.mem_all d), beq_iff_eq, eq_comm]
  intro d' hd' hd
  exact Depth.bits_injective ((beq_iff_eq.mp hd').trans (beq_iff_eq.mp hd).symm)

/-- What the validator needs of invariants (13) and (14) of R233. -/
theorem validatorParameters_of_configOk {c : Config} (h : configOk c = true) :
    0 < c.fvWordPeriods ∧ Function.Injective c.ratio.get := by
  simp only [configOk, Bool.and_eq_true, decide_eq_true_eq] at h
  obtain ⟨⟨⟨⟨-, -, hperiods, -⟩, -, -, -, h1624, h1632, h2432⟩, -⟩, -⟩ := h
  refine ⟨hperiods, fun d d' hd => ?_⟩
  cases d <;> cases d' <;> simp_all [PerDepth.get]

/-- A quotient as the two inequalities with which R122's rounding is stated. -/
theorem div_eq_iff_bounds {a b k : Nat} (hb : 0 < b) : a / b = k ↔ b * k ≤ a ∧ a < b * (k + 1) := by
  rw [Nat.div_eq_iff hb, Nat.mul_comm k b, Nat.mul_succ]
  omega

/-- With distinct ratios a depth is the candidate exactly when its ratio is the rounded clock ratio (R122). -/
theorem candDepth_eq_some {cfg : Config} (distinct : Function.Injective cfg.ratio.get) {ww bw : Word} {d : Depth} :
    candDepth cfg ww bw = some d ↔ ww ≠ 0 ∧ bw ≠ 0 ∧ clockRatio cfg ww.toNat bw.toNat = cfg.ratio.get d := by
  unfold candDepth
  split
  case isTrue hzero =>
    simp only [reduceCtorEq, false_iff]
    exact fun ⟨hww, hbw, _⟩ => hzero.elim hww hbw
  case isFalse hzero =>
    rw [find?_eq_some_iff_of_unique (Depth.mem_all d), beq_iff_eq]
    · exact ⟨fun h => ⟨fun hww => hzero (.inl hww), fun hbw => hzero (.inr hbw), h⟩, fun ⟨_, _, h⟩ => h⟩
    · exact fun d' hd' hd => distinct ((beq_iff_eq.mp hd').symm.trans (beq_iff_eq.mp hd))

/-- Settles O15: the ratios are distinct, so the search finds the depth whose ratio is the rounded quotient. -/
theorem candidateDepth : Obligations.CandidateDepth := by
  intro cfg ww bw d hok
  obtain ⟨hperiods, distinct⟩ := validatorParameters_of_configOk hok
  rw [candDepth_eq_some distinct]
  refine and_congr_right fun _ => and_congr_right fun hbw => ?_
  have hden : 0 < bw.toNat * cfg.fvWordPeriods :=
    Nat.mul_pos (Nat.pos_of_ne_zero (BitVec.toNat_ne.mp hbw)) hperiods
  exact div_eq_iff_bounds (Nat.mul_pos Nat.two_pos hden)

/-! What the operations of the validator write and answer. -/

/-- How an operation ends whose body wrote the registers of the validator and nothing else: the registers it may not
write were written with what they held. -/
theorem Ends.of_validator {written : List Item} (s : State) (fmt : FormatRegs) (fv : ValidatorRegs)
    (hfmt : Item.fmt ∉ written → fmt = s.fmt)
    (hprev : Item.fvPrev ∉ written → fv.prevRate = s.fv.prevRate ∧ fv.prevDepth = s.fv.prevDepth)
    (hupdated : Item.fvUpdated ∉ written → fv.updated = s.fv.updated) (st : Status) (ws : List Word) :
    Ends written (statusWord st 0 :: ws) [] 0 s
      (({ s with fmt := fmt, fv := fv } : State).respond (Reply.plain st ws)) := by
  refine Ends.of_respond (Reply.words_plain st ws) (fun x hx => ?_) rfl rfl rfl (fun _ => rfl)
    (List.append_nil _).symm rfl
  cases x
  case fmt => exact hfmt hx
  case fvPrev => exact hprev hx
  case fvUpdated => exact hupdated hx
  all_goals simp [Item.same]

/-- The candidates of an observation become the previous ones. -/
@[simp] theorem observe_fv_prevRate (cr : Option Rate) (cd : Option Depth) (s : State) :
    (observe cr cd s).fv.prevRate = cr := by
  obtain ⟨-, -, h⟩ | ⟨-, -, h⟩ | ⟨-, h⟩ := observe_cases cr cd s <;> rw [h]

@[simp] theorem observe_fv_prevDepth (cr : Option Rate) (cd : Option Depth) (s : State) :
    (observe cr cd s).fv.prevDepth = cd := by
  obtain ⟨-, -, h⟩ | ⟨-, -, h⟩ | ⟨-, h⟩ := observe_cases cr cd s <;> rw [h]

/-- When an observation validates (R123). -/
theorem observationOk_iff {cr : Option Rate} {cd : Option Depth} {s : State} :
    observationOk cr cd s = true ↔ cr ≠ none ∧ cd ≠ none ∧ cr = s.fv.prevRate ∧ cd = s.fv.prevDepth :=
  decide_eq_true_iff

/-- A good observation validates the format and raises the signal, or keeps a valid one as it is. -/
theorem observe_good {cr : Option Rate} {cd : Option Depth} {s : State} (hok : observationOk cr cd s = true) :
    (s.fmt.valid = false → (observe cr cd s).fmt = { rate := cr, depth := cd, valid := true } ∧
      (observe cr cd s).fv.updated = true) ∧
    (s.fmt.valid = true → (observe cr cd s).fmt = s.fmt ∧ (observe cr cd s).fv.updated = s.fv.updated) := by
  obtain ⟨-, hv, h⟩ | ⟨-, hv, h⟩ | ⟨hbad, -⟩ := observe_cases cr cd s
  · simp [h, hv]
  · simp [h, hv]
  · simp [hok] at hbad

/-- Any other observation invalidates the format and leaves the signal. -/
theorem observe_bad {cr : Option Rate} {cd : Option Depth} {s : State} (hbad : observationOk cr cd s = false) :
    (observe cr cd s).fmt = { s.fmt with valid := false } ∧ (observe cr cd s).fv.updated = s.fv.updated := by
  obtain ⟨hok, -⟩ | ⟨hok, -⟩ | ⟨-, h⟩ := observe_cases cr cd s
  · simp [hok] at hbad
  · simp [hok] at hbad
  · simp [h]

/-- An observation writes the registers of the validator alone. -/
theorem observe_eq (cr : Option Rate) (cd : Option Depth) (s : State) :
    observe cr cd s = { s with fmt := (observe cr cd s).fmt, fv := (observe cr cd s).fv } := by
  obtain ⟨-, -, h⟩ | ⟨-, -, h⟩ | ⟨-, h⟩ := observe_cases cr cd s <;> rw [h]

/-- How `FVO` ends whatever it observes. -/
theorem Ends.of_observe (cr : Option Rate) (cd : Option Depth) (s : State) (st : Status) (ws : List Word) :
    Ends [.fvPrev, .fmt, .fvUpdated] (statusWord st 0 :: ws) [] 0 s
      ((observe cr cd s).respond (Reply.plain st ws)) := by
  rw [observe_eq]
  exact Ends.of_validator s _ _ (by simp) (by simp) (by simp) st ws

/-- How `FVO` ends when its observation does not validate: without the signal. -/
theorem Ends.of_observe_bad {cr : Option Rate} {cd : Option Depth} {s : State}
    (hbad : observationOk cr cd s = false) (st : Status) (ws : List Word) :
    Ends [.fvPrev, .fmt] (statusWord st 0 :: ws) [] 0 s ((observe cr cd s).respond (Reply.plain st ws)) := by
  rw [observe_eq]
  exact Ends.of_validator s _ _ (by simp) (by simp) (fun _ => (observe_bad hbad).2) st ws

/-- The dispatch of `FVO`. -/
theorem exec_fvo (ww bw : Word) (s : State) : exec (.fvo ww bw) s = execFvo ww bw s := rfl

/-- What `FVO` does past the checks (R123). -/
theorem exec_fvo_ready {s : State} (h : Ready .p s) (ww bw : Word) :
    exec (.fvo ww bw) s =
      (observe (candRate s.cfg ww) (candDepth s.cfg ww bw) s).raise
        (if observationOk (candRate s.cfg ww) (candDepth s.cfg ww bw) s then .ok else .formatErr)
        [fmtWord (observe (candRate s.cfg ww) (candDepth s.cfg ww bw) s)] :=
  (exec_fvo ww bw s).trans (State.gate_ready h (by decide) _)

/-- Settles O16, by whether the observation validates. -/
theorem fvoObserves : Obligations.FvoObserves := by
  refine ⟨fun ww bw => encode_of_formatZ rfl, fun s ww bw hport => ?_, fun s ww bw hs => ?_⟩
  · obtain ⟨t, hexec, hends⟩ := exec_notP (i := .fvo ww bw) rfl hport
    exact ⟨t, 0, hexec, hends⟩
  · have hexec := exec_fvo_ready hs ww bw
    generalize candRate s.cfg ww = cr, candDepth s.cfg ww bw = cd at hexec ⊢
    refine ⟨_, hexec, by simp, by simp, fun hok => ?_, fun hbad => ?_⟩
    · have hgood : observationOk cr cd s = true := observationOk_iff.mpr hok
      refine ⟨?_, ?_⟩
      · rw [fmtWord_respond, if_pos hgood]
        exact Ends.of_observe cr cd s .ok _
      · simpa using observe_good hgood
    · have hfalse : observationOk cr cd s = false := Bool.eq_false_iff.mpr (mt observationOk_iff.mp hbad)
      refine ⟨?_, ?_⟩
      · rw [fmtWord_respond, if_neg (Bool.eq_false_iff.mp hfalse)]
        exact Ends.of_observe_bad hfalse .formatErr _
      · simpa using (observe_bad hfalse).1

/-- The signal after a good declaration: raised when something changed, else as before (R124). -/
theorem declareGood_fv_updated (r : Rate) (d : Depth) (s : State) :
    (declareGood r d s).fv.updated = true ↔
      s.fv.updated = true ∨ s.fmt.valid = false ∨ s.fmt.rate ≠ some r ∨ s.fmt.depth ≠ some d := by
  simp only [declareGood, Bool.or_eq_true, decide_eq_true_eq]
  exact or_comm

/-- The dispatch of `FVD`. -/
theorem exec_fvd (rateHz depthBits : Word) (s : State) :
    exec (.fvd rateHz depthBits) s = execFvd rateHz depthBits s := rfl

/-- `FVD` of a whitelisted pair (R124). -/
theorem exec_fvd_whitelisted {s : State} (h : Ready .p s) {rateHz depthBits : Word} {r : Rate} {d : Depth}
    (hr : rateHz.toNat = r.hz) (hd : depthBits.toNat = d.bits) :
    exec (.fvd rateHz depthBits) s = (declareGood r d s).done [fmtWord (declareGood r d s)] := by
  rw [exec_fvd, execFvd, State.gate_ready h (by decide), declaredRate_eq_some.mpr hr, declaredDepth_eq_some.mpr hd]

/-- `FVD` of any other pair (R124). -/
theorem exec_fvd_other {s : State} (h : Ready .p s) {rateHz depthBits : Word}
    (hother : ∀ (r : Rate) (d : Depth), ¬ (rateHz.toNat = r.hz ∧ depthBits.toNat = d.bits)) :
    exec (.fvd rateHz depthBits) s = (declareBad s).raise .formatErr [fmtWord (declareBad s)] := by
  rw [exec_fvd, execFvd, State.gate_ready h (by decide)]
  split
  case h_1 r d hr hd => exact absurd ⟨declaredRate_eq_some.mp hr, declaredDepth_eq_some.mp hd⟩ (hother r d)
  case h_2 => rfl

/-- How `FVD` of a whitelisted pair ends. -/
theorem fvd_whitelisted_ends {s : State} (h : Ready .p s) {rateHz depthBits : Word} {r : Rate} {d : Depth}
    (hr : rateHz.toNat = r.hz) (hd : depthBits.toNat = d.bits) :
    ∃ t, exec (.fvd rateHz depthBits) s = .next t ∧
      Ends [.fvPrev, .fmt, .fvUpdated] [statusWord .ok 0, fmtWord t] [] 0 s t ∧
      t.fmt = { rate := some r, depth := some d, valid := true } ∧
      t.fv.prevRate = some r ∧ t.fv.prevDepth = some d ∧
      (t.fv.updated = true ↔
        s.fv.updated = true ∨ s.fmt.valid = false ∨ s.fmt.rate ≠ some r ∨ s.fmt.depth ≠ some d) := by
  refine ⟨_, exec_fvd_whitelisted h hr hd, ?_, by simp, by simp [declareGood], by simp [declareGood], ?_⟩
  · rw [fmtWord_respond]
    exact Ends.of_validator s _ _ (by simp) (by simp) (by simp) .ok _
  · rw [State.respond_fv]
    exact declareGood_fv_updated r d s

/-- Settles O17, by whether the pair is in the whitelist. -/
theorem fvdDeclares : Obligations.FvdDeclares := by
  refine ⟨fun rateHz depthBits => encode_of_formatZ rfl, fun s rateHz depthBits hport => ?_,
    fun s rateHz depthBits hs => ?_⟩
  · obtain ⟨t, hexec, hends⟩ := exec_notP (i := .fvd rateHz depthBits) rfl hport
    exact ⟨t, 0, hexec, hends⟩
  · by_cases hlisted : ∃ (r : Rate) (d : Depth), rateHz.toNat = r.hz ∧ depthBits.toNat = d.bits
    · obtain ⟨r, d, hr, hd⟩ := hlisted
      obtain ⟨t, hexec, hspec⟩ := fvd_whitelisted_ends hs hr hd
      refine ⟨t, hexec, fun r' d' hr' hd' => ?_, fun hother => absurd ⟨hr, hd⟩ (hother r d)⟩
      obtain rfl : r = r' := Rate.hz_injective (hr.symm.trans hr')
      obtain rfl : d = d' := Depth.bits_injective (hd.symm.trans hd')
      exact hspec
    · have hother : ∀ (r : Rate) (d : Depth), ¬ (rateHz.toNat = r.hz ∧ depthBits.toNat = d.bits) :=
        fun r d h => hlisted ⟨r, d, h⟩
      refine ⟨_, exec_fvd_other hs hother, fun r d hr hd => absurd ⟨hr, hd⟩ (hother r d), fun _ => ?_⟩
      refine ⟨?_, by simp, by simp, by simp⟩
      rw [fmtWord_respond]
      exact Ends.of_validator s (declareBad s).fmt (declareBad s).fv (by simp) (by simp) (fun _ => rfl) .formatErr _

/-- The dispatch of `FVT`. -/
theorem exec_fvt (s : State) : exec .fvt s = execFvt s := rfl

/-- What `FVT` does past the checks (R125). -/
theorem exec_fvt_ready {s : State} (h : Ready .p s) : exec .fvt s = (takeUpdated s).done [flagWord s.fv.updated] :=
  (exec_fvt s).trans (State.gate_ready h (by decide) _)

/-- `FVT` returns the signal and clears it (R125). -/
theorem fvt_ends {s : State} (h : Ready .p s) :
    ∃ t, exec .fvt s = .next t ∧ t.fv.updated = false ∧
      Ends [.fvUpdated] [statusWord .ok 0, flagWord s.fv.updated] [] 0 s t ∧
      (s.fv.updated = false → Ends [] [statusWord .ok 0, flagWord s.fv.updated] [] 0 s t) := by
  refine ⟨_, exec_fvt_ready h, by simp, ?_, fun hnone => ?_⟩
  · exact Ends.of_validator s s.fmt (takeUpdated s).fv (fun _ => rfl) (fun _ => ⟨rfl, rfl⟩) (by simp) .ok _
  · exact Ends.of_validator s s.fmt (takeUpdated s).fv (fun _ => rfl) (fun _ => ⟨rfl, rfl⟩) (fun _ => hnone.symm) .ok _

/-- Two declarations that each change the format raise the signal twice, and are seen as one by the takes that
follow. -/
theorem twoRaises_oneTake {s : State} (hs : Ready .p s) :
    ∃ v f1 f2, execAll [.fvd 48000 16, .fvd 44100 16, .fvt, .fvt] s = .next v ∧
      v.portP.output = s.portP.output ++
        [statusWord .ok 0, f1, statusWord .ok 0, f2, statusWord .ok 0, 1, statusWord .ok 0, 0] := by
  obtain ⟨s1, exec1, ends1, fmt1, -⟩ := fvd_whitelisted_ends (r := .r48000) (d := .d16) hs
    (rateHz := 48000) (depthBits := 16) rfl rfl
  have hs1 : Ready .p s1 := ends1.ready (by decide) hs
  obtain ⟨s2, exec2, ends2, -, -, -, updated2⟩ := fvd_whitelisted_ends (r := .r44100) (d := .d16) hs1
    (rateHz := 44100) (depthBits := 16) rfl rfl
  have hs2 : Ready .p s2 := ends2.ready (by decide) hs1
  have hraised : s2.fv.updated = true := updated2.mpr (.inr (.inr (.inl (by simp [fmt1]))))
  obtain ⟨s3, exec3, hcleared, ends3, -⟩ := fvt_ends hs2
  have hs3 : Ready .p s3 := ends3.ready (by decide) hs2
  obtain ⟨v, exec4, -, ends4, -⟩ := fvt_ends hs3
  refine ⟨v, fmtWord s1, fmtWord s2, ?_, ?_⟩
  · rw [execAll_cons exec1, execAll_cons exec2, execAll_cons exec3, execAll_cons exec4, execAll]
  · rw [ends4.portP_output hs3.1, ends3.portP_output hs2.1, ends2.portP_output hs1.1, ends1.portP_output hs.1,
      hraised, hcleared]
    simp [flagWord]

/-- Settles O18: the take ends the same way twice, the second time with nothing pending. -/
theorem fvtTakesTheSignal : Obligations.FvtTakesTheSignal := by
  refine ⟨encode_of_formatZ rfl, fun s => rfl, fun s hport => exec_notP (i := .fvt) rfl hport, fun s hs => ?_⟩
  obtain ⟨t, hexec, hcleared, hends, -⟩ := fvt_ends hs
  obtain ⟨u, hexec', -, -, hends'⟩ := fvt_ends (hends.ready (by decide) hs)
  have hagain := hends' hcleared
  rw [hcleared] at hagain
  exact ⟨t, u, hexec, hcleared, hends, hexec', hagain, twoRaises_oneTake hs⟩

end Sys2Proof.Machine
end

section
/-! Proofs about the resets of the oversampling cascade (spec/41_oversampling_cascade.md): the command word of `OSR`,
what the two resets write and answer, and the statements of R142 and R145. -/

namespace Sys2Proof

/-- The `a` field of a command word fills bits 23:20, which are 0 in the word without it (R92). -/
theorem Fields.toWord_eq_or_a (op : BitVec 8) (a b : BitVec 4) (imm : BitVec 16) :
    Fields.toWord ⟨op, a, b, imm⟩ = Fields.toWord ⟨op, 0, b, imm⟩ ||| (a.setWidth 32 <<< 20) := by
  refine BitVec.eq_of_getLsbD_eq fun i hi => ?_
  simp only [Fields.toWord, BitVec.getLsbD_or, BitVec.getLsbD_shiftLeft, BitVec.getLsbD_setWidth,
    BitVec.getLsbD_append]
  split_ifs with himm hb ha
  · simp [show i < 20 by omega]
  · simp [show i < 20 by omega]
  · simp [hi, show ¬ i < 20 by omega, show i - 16 - 4 = i - 20 by omega, show i - 20 < 32 by omega]
  · simp [show a.getLsbD (i - 20) = false from BitVec.getLsbD_of_ge a _ (by omega)]

/-- The words of `OSR`: its row's match word with the stage in bits 23:20 (R93, R94). -/
theorem encode_osr (a : BitVec 4) : encode (.osr a) = [0x20000000 ||| (a.setWidth 32 <<< 20)] :=
  congrArg (· :: []) ((Fields.toWord_eq_or_a Row.osr.op a 0 0).trans (congrArg (· ||| _) (Row.toWord_op .osr)))

/-- The indices that name no stage (R142). -/
theorem Stage.ofIndex_eq_none_iff {a : BitVec 4} : Stage.ofIndex a = none ↔ 3 ≤ a.toNat := by
  revert a
  decide

end Sys2Proof

namespace Sys2Proof.Machine

/-- How an operation ends whose body wrote the cascade and nothing else: the stages it may not write were written with
what they held. -/
theorem Ends.of_cascade {written : List Item} (s : State) (os : PerStage FilterState)
    (hstage : ∀ st, Item.stage st ∉ written → os.get st = s.os.get st) {response : List Word} {r : Reply}
    (words : r.words = response) :
    Ends written response [] 0 s (({ s with os := os } : State).respond r) := by
  refine Ends.of_respond words (fun x hx => ?_) rfl rfl rfl (fun _ => rfl) (List.append_nil _).symm rfl
  cases x
  case stage st => exact hstage st hx
  all_goals simp [Item.same]

/-- The dispatch of `OSR`. -/
theorem exec_osr (a : BitVec 4) (s : State) : exec (.osr a) s = execOsr a s := rfl

/-- `OSR` of a stage (R142). -/
theorem exec_osr_stage {s : State} (h : Ready .p s) {a : BitVec 4} {st : Stage} (ha : Stage.ofIndex a = some st) :
    exec (.osr a) s = (zeroStage st s).done [] := by
  rw [exec_osr, execOsr, State.gate_ready h (by decide), ha]

/-- `OSR` of an index that names no stage (R142). -/
theorem exec_osr_noStage {s : State} (h : Ready .p s) {a : BitVec 4} (ha : Stage.ofIndex a = none) :
    exec (.osr a) s = s.raise .illegal [] := by
  rw [exec_osr, execOsr, State.gate_ready h (by decide), ha]

/-- How `OSR` of a stage ends. -/
theorem osr_stage_ends {s : State} (h : Ready .p s) {a : BitVec 4} {st : Stage} (ha : Stage.ofIndex a = some st) :
    ∃ t, exec (.osr a) s = .next t ∧ t.os = s.os.set st (FilterState.zero (s.cfg.lineLength st)) ∧
      Ends [.stage st] [statusWord .ok 0] [] 0 s t := by
  refine ⟨_, exec_osr_stage h ha, by simp, Ends.of_cascade s _ (fun st' hst' => ?_) (Reply.words_plain .ok [])⟩
  have hother : st' ≠ st := fun e => hst' (by simp [e])
  exact PerStage.get_set_other _ _ hother

/-- Settles O21, by whether the index names a stage. -/
theorem osrClearsOneStage : Obligations.OsrClearsOneStage := by
  refine ⟨encode_osr, fun s a => rfl, fun s a hport => exec_notP (i := .osr a) rfl hport, fun s a st hs ha => ?_,
    fun s a hs ha => ?_⟩
  · obtain ⟨t, hexec, hos, hends⟩ := osr_stage_ends hs ha
    exact ⟨t, hexec, by rw [hos, PerStage.get_set_same]; rfl, hends⟩
  · exact ⟨_, exec_osr_noStage hs (Stage.ofIndex_eq_none_iff.mpr ha), Ends.of_raise s .illegal []⟩

/-- The dispatch of `OSZ`. -/
theorem exec_osz (s : State) : exec .osz s = execOsz s := rfl

/-- What `OSZ` does past the checks (R145). -/
theorem exec_osz_ready {s : State} (h : Ready .p s) : exec .osz s = (zeroCascade s).done [] :=
  (exec_osz s).trans (State.gate_ready h (by decide) _)

/-- How `OSZ` ends. -/
theorem osz_ends {s : State} (h : Ready .p s) :
    ∃ t, exec .osz s = .next t ∧ t.os = cascadeZero s.cfg ∧
      Ends [.stage .s0, .stage .s1, .stage .s2] [statusWord .ok 0] [] 0 s t := by
  refine ⟨_, exec_osz_ready h, by simp, Ends.of_cascade s _ (fun st hst => ?_) (Reply.words_plain .ok [])⟩
  exact absurd (by cases st <;> simp) hst

/-- `OSR` of each stage in turn leaves the cascade in its reset state. -/
theorem osr_eachStage {s : State} (hs : Ready .p s) :
    ∃ u, execAll [.osr 0, .osr 1, .osr 2] s = .next u ∧ u.os = cascadeZero s.cfg := by
  obtain ⟨s1, exec1, os1, ends1⟩ := osr_stage_ends (a := 0) (st := .s0) hs rfl
  have hs1 : Ready .p s1 := ends1.ready (by decide) hs
  obtain ⟨s2, exec2, os2, ends2⟩ := osr_stage_ends (a := 1) (st := .s1) hs1 rfl
  have hs2 : Ready .p s2 := ends2.ready (by decide) hs1
  obtain ⟨u, exec3, os3, -⟩ := osr_stage_ends (a := 2) (st := .s2) hs2 rfl
  refine ⟨u, ?_, ?_⟩
  · rw [execAll_cons exec1, execAll_cons exec2, execAll_cons exec3, execAll]
  · rw [os3, os2, os1, ends2.configuration, ends1.configuration]
    exact zeroCascade_os s

/-- Settles O22: both runs end with the cascade in its reset state. -/
theorem oszClearsTheCascade : Obligations.OszClearsTheCascade := by
  refine ⟨encode_of_formatZ rfl, fun s => rfl, fun s hport => exec_notP (i := .osz) rfl hport, fun s hs => ?_⟩
  obtain ⟨t, hexec, hos, hends⟩ := osz_ends hs
  obtain ⟨u, hall, hu⟩ := osr_eachStage hs
  exact ⟨t, u, hexec, fun st => by rw [hos, cascadeZero_get]; rfl, hends, hall, hu.trans hos.symm⟩

end Sys2Proof.Machine
end

section
/-! Proofs about the snapshots of the queue (spec/42_queue.md): the two counters as `QOC` and `QTS` answer them, and the
statement of R163 and R164. -/

namespace Sys2Proof.Machine

/-- An operation whose body only answers a count of the state changes nothing, on an accepting port and a fit
lifecycle. -/
theorem State.gate_count {s : State} {row : Row} (count : State → Nat) (hport : s.issuer ∈ ports row)
    (hlife : s.life = .ready ∨ runsUnready row = true) :
    ∃ t, s.gate row (fun s => s.done [natWord (count s)]) = .next t ∧
      Ends [] [statusWord .ok 0, natWord (count s)] [] 0 s t :=
  ⟨_, State.gate_open _ hport hlife, Ends.of_raise s .ok [natWord (count s)]⟩

/-- The dispatch of `QOC`. -/
theorem exec_qoc (s : State) : exec .qoc s = execQoc s := rfl

/-- The dispatch of `QTS`. -/
theorem exec_qts (s : State) : exec .qts s = execQts s := rfl

/-- `QOC` and `QTS` are accepted on the `P` and the `C` port of a `READY` block (R270). -/
theorem snapshot_accepted {s : State} (h : Ready .p s ∨ Ready .c s) :
    s.issuer ∈ ports .qoc ∧ s.issuer ∈ ports .qts ∧ s.life = .ready := by
  obtain ⟨hport, hlife⟩ | ⟨hport, hlife⟩ := h <;> simp [hport, hlife, ports]

/-- The `T` port accepts neither `QOC` nor `QTS` (R270). -/
theorem snapshot_notT {s : State} (h : s.issuer = .t) : s.issuer ∉ ports .qoc ∧ s.issuer ∉ ports .qts := by
  simp [h, ports]

/-- How `QOC` ends past the checks (R163). -/
theorem qoc_ends {s : State} (h : Ready .p s ∨ Ready .c s) :
    ∃ t, exec .qoc s = .next t ∧ Ends [] [statusWord .ok 0, natWord s.q.occ] [] 0 s t := by
  obtain ⟨hport, -, hlife⟩ := snapshot_accepted h
  rw [exec_qoc, execQoc]
  exact State.gate_count (fun s => s.q.occ) hport (.inl hlife)

/-- How `QTS` ends past the checks (R164). -/
theorem qts_ends {s : State} (h : Ready .p s ∨ Ready .c s) :
    ∃ t, exec .qts s = .next t ∧ Ends [] [statusWord .ok 0, natWord s.q.total] [] 0 s t := by
  obtain ⟨-, hport, hlife⟩ := snapshot_accepted h
  rw [exec_qts, execQts]
  exact State.gate_count (fun s => s.q.total) hport (.inl hlife)

/-- Settles O34, by the issuing port; what the counters count is a part of the ring invariant. -/
theorem snapshotsReadTheCounters : Obligations.SnapshotsReadTheCounters := by
  refine ⟨encode_of_formatZ rfl, encode_of_formatZ rfl, fun s => ⟨rfl, rfl⟩, fun s ht => ?_, fun s hs => ?_,
    fun s ring => ⟨ring.occupancy, ring.total⟩⟩
  · obtain ⟨hqoc, hqts⟩ := snapshot_notT ht
    obtain ⟨t, exec_t, ends_t⟩ := exec_wrongPort (i := .qoc) hqoc
    obtain ⟨u, exec_u, ends_u⟩ := exec_wrongPort (i := .qts) hqts
    exact ⟨t, u, exec_t, exec_u, ends_t, ends_u⟩
  · obtain ⟨t, exec_t, ends_t⟩ := qoc_ends hs
    obtain ⟨u, exec_u, ends_u⟩ := qts_ends hs
    exact ⟨t, u, exec_t, exec_u, ends_t, ends_u⟩

end Sys2Proof.Machine
end

section
/-! Proofs about the encoder (spec/43_encoder.md): the range of the codes and their places in an output word (R183,
R185), the sub-samples as points of a ramp (R182), and the statements of R185 and R182. -/

namespace Sys2Proof.Machine

/-- What the encoder needs of invariants (8), (10) and (12) of R233. -/
theorem encoderParameters_of_configOk {cfg : Config} (h : configOk cfg = true) :
    (4 ≤ cfg.dsW ∧ cfg.dsW ≤ 6) ∧ (cfg.dsN = 4 ∨ cfg.dsN = 8) ∧ cfg.dsN * cfg.dsW ≤ 32 ∧ 25 ≤ cfg.dsInBits := by
  simp only [configOk, Bool.and_eq_true, decide_eq_true_eq] at h
  obtain ⟨⟨⟨⟨⟨⟨⟨⟨⟨-, hw⟩, -⟩, hn, hfit⟩, -⟩, hin, -⟩, -⟩, -⟩, -⟩, -⟩ := h
  exact ⟨hw, hn, hfit, hin⟩

/-! The codes. -/

/-- A code is within its `DS_W` bits (R183). -/
theorem quantize_bounds (cfg : Config) (v : Int) : 0 ≤ quantize cfg v ∧ quantize cfg v ≤ 2 ^ cfg.dsW - 1 := by
  have hmax : qMax cfg = 2 ^ cfg.dsW - 1 := by simp [qMax]
  have hpos : (0 : Int) < 2 ^ cfg.dsW := by positivity
  rw [← hmax]
  exact clamp_bounds _ (by omega)

/-- The code of a sub-step is what it quantizes, quantized. -/
theorem subStep_code {cfg : Config} {integ integ' : List Int} {u code : Int}
    (h : subStep cfg integ u = some (integ', code)) : code = quantize cfg (quantizerInput integ u) := by
  simp only [subStep] at h
  split at h
  · cases h; rfl
  · cases h

/-- Every code of a run of sub-steps is a quantized value. -/
theorem subSteps_codes {cfg : Config} (us : List Int) {integ integ' codes : List Int}
    (h : subSteps cfg integ us = some (integ', codes)) : ∀ code ∈ codes, ∃ v, code = quantize cfg v := by
  induction us generalizing integ integ' codes with
  | nil => cases h; simp
  | cons u us ih =>
    simp only [subSteps] at h
    split at h
    · cases h
    · rename_i i1 code hstep
      split at h
      · cases h
      · rename_i i2 codes' hrest
        cases h
        exact List.forall_mem_cons.mpr ⟨⟨_, subStep_code hstep⟩, ih hrest⟩

/-- Code `2^(DS_W-1)` is the level of PCM zero (R185). -/
theorem dequantize_midScale {cfg : Config} (hpos : 1 ≤ cfg.dsW) (hle : cfg.dsW ≤ cfg.dsInBits) :
    dequantize cfg ((2 ^ (cfg.dsW - 1) : Nat) : Int) = 0 := by
  have hexp : cfg.dsW - 1 + (cfg.dsInBits - cfg.dsW) = cfg.dsInBits - 1 := by omega
  rw [dequantize, qShift, bias, ← Nat.cast_mul, ← pow_add, hexp, sub_self]

/-! The places of the codes in a word. -/

/-- Codes of `width` bits fill no more than `width` bits each. -/
theorem packCodes_lt {width : Nat} {codes : List Int} (h : ∀ code ∈ codes, code.toNat < 2 ^ width) :
    packCodes width codes < 2 ^ (width * codes.length) := by
  induction codes with
  | nil => simp [packCodes]
  | cons code codes ih =>
    obtain ⟨hcode, hcodes⟩ := List.forall_mem_cons.mp h
    calc packCodes width (code :: codes)
        < 2 ^ width * (packCodes width codes + 1) := by rw [packCodes, Nat.mul_succ]; omega
      _ ≤ 2 ^ width * 2 ^ (width * codes.length) := Nat.mul_le_mul_left _ (ih hcodes)
      _ = 2 ^ (width * (code :: codes).length) := by rw [← pow_add, List.length_cons, Nat.mul_succ, Nat.add_comm]

/-- The code of sub-step `j` is the digit `j` of the packed codes in base `2 ^ width`. -/
theorem packCodes_digit {width : Nat} {codes : List Int} (h : ∀ code ∈ codes, code.toNat < 2 ^ width) {j : Nat}
    {code : Int} (hj : codes[j]? = some code) : packCodes width codes / 2 ^ (width * j) % 2 ^ width = code.toNat := by
  induction codes generalizing j with
  | nil => simp at hj
  | cons first codes ih =>
    obtain ⟨hfirst, hcodes⟩ := List.forall_mem_cons.mp h
    cases j with
    | zero =>
      obtain rfl : first = code := by simpa using hj
      simp [packCodes, Nat.mod_eq_of_lt hfirst]
    | succ j =>
      have hshift : packCodes width (first :: codes) / 2 ^ width = packCodes width codes := by
        rw [packCodes, Nat.add_mul_div_left _ _ (Nat.two_pow_pos width), Nat.div_eq_of_lt hfirst, Nat.zero_add]
      rw [Nat.mul_succ, Nat.add_comm, pow_add, ← Nat.div_div_eq_div_mul, hshift]
      exact ih hcodes (by simpa using hj)

/-- A word of packed codes that fit 32 bits: each code in its place, zeros above the last (R185). -/
theorem packedWord_fields {width : Nat} {codes : List Int} (h : ∀ code ∈ codes, 0 ≤ code ∧ code ≤ 2 ^ width - 1)
    (hfit : width * codes.length ≤ 32) :
    (∀ (j : Nat) (code : Int), codes[j]? = some code →
      (((BitVec.ofNat 32 (packCodes width codes)).extractLsb' (width * j) width).toNat : Int) = code) ∧
    ∀ k, width * codes.length ≤ k → (BitVec.ofNat 32 (packCodes width codes)).getLsbD k = false := by
  have hdigits : ∀ code ∈ codes, code.toNat < 2 ^ width := fun code hm => by
    obtain ⟨hlo, hhi⟩ := h code hm
    zify
    omega
  have hlt := packCodes_lt hdigits
  have hword : (BitVec.ofNat 32 (packCodes width codes)).toNat = packCodes width codes := by
    rw [BitVec.toNat_ofNat, Nat.mod_eq_of_lt (hlt.trans_le (Nat.pow_le_pow_right Nat.two_pos hfit))]
  constructor
  · intro j code hj
    rw [BitVec.extractLsb'_toNat, hword, Nat.shiftRight_eq_div_pow, packCodes_digit hdigits hj]
    exact Int.toNat_of_nonneg (h code (List.mem_of_getElem? hj)).1
  · intro k hk
    rw [BitVec.getLsbD, hword]
    exact Nat.testBit_lt_two_pow (hlt.trans_le (Nat.pow_le_pow_right Nat.two_pos hk))

/-- Settles O42: codes are quantized values, and the word is their packing. -/
theorem codesArePacked : Obligations.CodesArePacked := by
  intro cfg ch ch' x w hok henc
  obtain ⟨⟨hw4, hw6⟩, -, hfit, hin⟩ := encoderParameters_of_configOk hok
  obtain ⟨codes, hsteps, hprev, rfl⟩ := encodeChannel_eq_some henc
  have hlen : codes.length = cfg.dsN := by
    obtain ⟨-, hcodes, -⟩ := subSteps_eq_some _ hsteps
    simpa [subSamples] using hcodes
  have hrange : ∀ code ∈ codes, 0 ≤ code ∧ code ≤ 2 ^ cfg.dsW - 1 := fun code hm => by
    obtain ⟨v, rfl⟩ := subSteps_codes _ hsteps code hm
    exact quantize_bounds cfg v
  obtain ⟨hplace, hzero⟩ := packedWord_fields hrange (by rw [hlen, Nat.mul_comm]; exact hfit)
  rw [hlen] at hzero
  refine ⟨codes, hsteps, hlen, hprev, fun j code hj => ?_, hzero, dequantize_midScale (by omega) (by omega)⟩
  obtain ⟨hlo, hhi⟩ := hrange code (List.mem_of_getElem? hj)
  exact ⟨hlo, hhi, hplace j code hj⟩

/-! The sub-samples. -/

/-- Point `k` of the way from `p` to `x` in `n` equal shares, rounded down. -/
def ramp (n : Nat) (p x : Int) (k : Nat) : Int := p + (x - p) * (k : Int) / (n : Int)

/-- The ramp starts on the previous sample. -/
@[simp] theorem ramp_zero (n : Nat) (p x : Int) : ramp n p x 0 = p := by simp [ramp]

/-- The ramp ends on the input exactly. -/
theorem ramp_self {n : Nat} (hn : 0 < n) (p x : Int) : ramp n p x n = x := by
  rw [ramp, Int.mul_ediv_cancel _ (by omega)]
  omega

/-- Toward a larger sample the ramp climbs. -/
theorem ramp_monotone {n : Nat} (hn : 0 < n) {p x : Int} (h : p ≤ x) : Monotone (ramp n p x) := fun j k hjk => by
  have hshare : (x - p) * (j : Int) ≤ (x - p) * (k : Int) :=
    mul_le_mul_of_nonneg_left (by exact_mod_cast hjk) (by omega)
  exact add_le_add_right (Int.ediv_le_ediv (by omega) hshare) p

/-- Toward a smaller sample the ramp falls. -/
theorem ramp_antitone {n : Nat} (hn : 0 < n) {p x : Int} (h : x ≤ p) : Antitone (ramp n p x) := fun j k hjk => by
  have hshare : (x - p) * (k : Int) ≤ (x - p) * (j : Int) :=
    mul_le_mul_of_nonpos_left (by exact_mod_cast hjk) (by omega)
  exact add_le_add_right (Int.ediv_le_ediv (by omega) hshare) p

/-- `LG` is the logarithm of `DS_N` exactly (R181). -/
theorem two_pow_lerpShift {cfg : Config} (hn : cfg.dsN = 4 ∨ cfg.dsN = 8) : 2 ^ lerpShift cfg = cfg.dsN := by
  rcases hn with hn | hn <;> rw [lerpShift, hn] <;> decide

/-- An interpolated sub-sample is a point of the ramp, the first one already a share away from the previous sample
(R182). -/
theorem subSample_of_lerp {cfg : Config} (hn : cfg.dsN = 4 ∨ cfg.dsN = 8) (hlerp : cfg.dsLerp = 1) (p x : Int)
    (j : Nat) : subSample cfg p x j = ramp cfg.dsN p x (j + 1) := by
  rw [subSample, if_pos hlerp, asr, two_pow_lerpShift hn, ramp, Nat.cast_succ]

/-- In hold mode a sub-sample is the input (R182). -/
theorem subSample_of_hold {cfg : Config} (hhold : cfg.dsLerp = 0) (p x : Int) (j : Nat) :
    subSample cfg p x j = x := by
  rw [subSample, if_neg (by omega)]

/-- There are `DS_N` sub-samples. -/
@[simp] theorem length_subSamples (cfg : Config) (p x : Int) : (subSamples cfg p x).length = cfg.dsN := by
  simp [subSamples]

/-- Sub-sample `j` stands in place `j`. -/
theorem getElem?_subSamples {cfg : Config} {j : Nat} (hj : j < cfg.dsN) (p x : Int) :
    (subSamples cfg p x)[j]? = some (subSample cfg p x j) := by
  simp [subSamples, hj]

/-- A member of the sub-samples is one of the `DS_N`. -/
theorem mem_subSamples {cfg : Config} {p x u : Int} :
    u ∈ subSamples cfg p x ↔ ∃ j < cfg.dsN, subSample cfg p x j = u := by
  simp [subSamples]

/-- Two sub-samples are related when any earlier one is related to any later one. -/
theorem pairwise_subSamples {cfg : Config} {p x : Int} {R : Int → Int → Prop}
    (h : ∀ j k, j < k → R (subSample cfg p x j) (subSample cfg p x k)) : (subSamples cfg p x).Pairwise R :=
  List.pairwise_map.mpr (List.pairwise_lt_range.imp fun hlt => h _ _ hlt)

/-- In hold mode every sub-sample is the input (R182). -/
theorem subSamples_of_hold {cfg : Config} (hhold : cfg.dsLerp = 0) (p x : Int) :
    subSamples cfg p x = List.replicate cfg.dsN x :=
  List.eq_replicate_iff.mpr ⟨length_subSamples cfg p x, fun u hu => by
    obtain ⟨j, -, rfl⟩ := mem_subSamples.mp hu
    exact subSample_of_hold hhold p x j⟩

section Interpolation

variable {cfg : Config} (hn : cfg.dsN = 4 ∨ cfg.dsN = 8) (hlerp : cfg.dsLerp = 1)
include hn hlerp

/-- An interpolated sub-sample as R182's formula writes it. -/
theorem subSample_eq_fdiv (p x : Int) (j : Nat) :
    subSample cfg p x j = p + Int.fdiv ((x - p) * ((j : Int) + 1)) cfg.dsN := by
  rw [subSample_of_lerp hn hlerp, ramp, Int.fdiv_eq_ediv_of_nonneg _ (by omega), Nat.cast_succ]

/-- The last interpolated sub-sample is the input. -/
theorem getLast?_subSamples (p x : Int) : (subSamples cfg p x).getLast? = some x := by
  have hpos : 0 < cfg.dsN := by omega
  rw [List.getLast?_eq_getElem?, length_subSamples, getElem?_subSamples (by omega), subSample_of_lerp hn hlerp,
    Nat.sub_add_cancel hpos, ramp_self hpos]

/-- Toward a larger input the sub-samples climb and stay between the two samples. -/
theorem subSamples_climb {p x : Int} (h : p ≤ x) :
    (subSamples cfg p x).Pairwise (· ≤ ·) ∧ ∀ u ∈ subSamples cfg p x, p ≤ u ∧ u ≤ x := by
  have hmono := ramp_monotone (by omega : 0 < cfg.dsN) h
  refine ⟨pairwise_subSamples fun j k hjk => ?_, fun u hu => ?_⟩
  · rw [subSample_of_lerp hn hlerp, subSample_of_lerp hn hlerp]
    exact hmono (by omega)
  · obtain ⟨j, hj, rfl⟩ := mem_subSamples.mp hu
    rw [subSample_of_lerp hn hlerp]
    constructor
    · simpa using hmono (Nat.zero_le (j + 1))
    · simpa [ramp_self (show 0 < cfg.dsN by omega)] using hmono (Nat.succ_le_of_lt hj)

/-- Toward a smaller input the sub-samples fall and stay between the two samples. -/
theorem subSamples_fall {p x : Int} (h : x ≤ p) :
    (subSamples cfg p x).Pairwise (· ≥ ·) ∧ ∀ u ∈ subSamples cfg p x, x ≤ u ∧ u ≤ p := by
  have hanti := ramp_antitone (by omega : 0 < cfg.dsN) h
  refine ⟨pairwise_subSamples fun j k hjk => ?_, fun u hu => ?_⟩
  · rw [subSample_of_lerp hn hlerp, subSample_of_lerp hn hlerp]
    exact hanti (by omega)
  · obtain ⟨j, hj, rfl⟩ := mem_subSamples.mp hu
    rw [subSample_of_lerp hn hlerp]
    constructor
    · simpa [ramp_self (show 0 < cfg.dsN by omega)] using hanti (Nat.succ_le_of_lt hj)
    · simpa using hanti (Nat.zero_le (j + 1))

end Interpolation

/-- Settles O43: interpolated sub-samples are the points of a ramp after its start. -/
theorem subSamplesRamp : Obligations.SubSamplesRamp := by
  intro cfg p x hok
  obtain ⟨-, hn, -⟩ := encoderParameters_of_configOk hok
  refine ⟨length_subSamples cfg p x, fun ch ch' x w henc => ?_, fun hlerp j hj => ?_,
    fun hhold => subSamples_of_hold hhold p x,
    fun hlerp => ⟨getLast?_subSamples hn hlerp p x, subSamples_climb hn hlerp, subSamples_fall hn hlerp⟩⟩
  · obtain ⟨-, -, hprev, -⟩ := encodeChannel_eq_some henc
    exact hprev
  · rw [getElem?_subSamples hj, subSample_eq_fdiv hn hlerp]

end Sys2Proof.Machine
end

section
/-! Proofs about the rate feedback controller (spec/44_rate_feedback.md): what every operation and every step
does to the feedback registers of a controller that stays unconfigured, how `FBR` ends, and the statement of R203. -/

namespace Sys2Proof.Machine

/-! The feedback registers, as long as nothing configures the controller. -/

/-- What a result does to the feedback registers of `s`: it holds them all, or leaves the controller configured. -/
def HoldsOrConfigures (s : State) (r : Result) : Prop := ∀ t, r = .next t → t.fb = s.fb ∨ t.fb.configured = true

/-- A next state, judged by its own registers. -/
@[simp] theorem holdsOrConfigures_next {s t : State} :
    HoldsOrConfigures s (.next t) ↔ t.fb = s.fb ∨ t.fb.configured = true :=
  ⟨fun h => h t rfl, fun h _ ht => by cases ht; exact h⟩

/-- A fault leaves no registers to judge. -/
@[simp] theorem holdsOrConfigures_fault (s : State) (e : Fault) : HoldsOrConfigures s (.fault e) :=
  fun _ h => by cases h

/-- A result reached through an intermediate state. -/
theorem HoldsOrConfigures.of_held {s u : State} {r : Result} (hu : u.fb = s.fb ∨ u.fb.configured = true)
    (h : HoldsOrConfigures u r) : HoldsOrConfigures s r := by
  intro t ht
  rcases h t ht with heq | hconf
  · rw [heq]; exact hu
  · exact .inr hconf

/-- The checks of R262 write no register, so an operation does what its body does. -/
theorem HoldsOrConfigures.gate {s : State} {row : Row} {body : State → Result} (h : HoldsOrConfigures s (body s)) :
    HoldsOrConfigures s (s.gate row body) := by
  intro t ht
  obtain ⟨-, -, hbody⟩ | ⟨-, hrefused⟩ | ⟨-, -, hrefused⟩ := State.gate_cases ht
  · exact h t hbody
  · cases hrefused; simp
  · cases hrefused; simp

/-! The shared operations. -/

/-- `FBC` seeds a controller that it leaves configured, or does nothing. -/
theorem configureFeedback_fb (s : State) :
    (configureFeedback s).2.fb = s.fb ∨ (configureFeedback s).2.fb.configured = true := by
  obtain ⟨-, h⟩ | ⟨r, d, -, h⟩ := configureFeedback_cases s <;> rw [h]
  · exact .inl rfl
  · exact .inr rfl

/-- `FBU` writes only a configured controller, which stays so. -/
theorem updateFeedback_fb (tick : Word) (total : Nat) (s : State) :
    (updateFeedback tick total s).2.fb = s.fb ∨ (updateFeedback tick total s).2.fb.configured = true := by
  obtain ⟨-, h⟩ | ⟨_, _, -, hconf, -, h⟩ | ⟨_, _, -, hconf, -, h⟩ :=
    updateFeedback_cases tick total s <;> rw [h]
  · exact .inl rfl
  · exact .inr hconf
  · exact .inr hconf

/-- Line 1 of `PCY` seeds the controller, or leaves it. -/
theorem takeSignal_fb (s : State) : (takeSignal s).fb = s.fb ∨ (takeSignal s).fb.configured = true := by
  obtain ⟨-, h⟩ | ⟨-, -, h⟩ | ⟨r, d, -, -, h⟩ := takeSignal_cases s <;> rw [h]
  · exact .inl rfl
  · exact .inl rfl
  · exact .inr rfl

/-- An observation leaves the feedback registers. -/
@[simp] theorem observe_fb (cr : Option Rate) (cd : Option Depth) (s : State) : (observe cr cd s).fb = s.fb := by
  rw [observe_eq]

/-- An enqueue that does not fault leaves the feedback registers. -/
theorem enqueue_fb {g : Family} {b : Block} {s u : State} {st : Status} (h : enqueue g b s = .ok (st, u)) :
    u.fb = s.fb := by
  obtain ⟨-, he⟩ | ⟨-, -, -, he⟩ | ⟨-, -, -, e, -, he⟩ | ⟨-, -, -, m, -, he⟩ := enqueue_cases g b s <;>
    rw [he] at h <;> cases h
  · rfl
  · rfl
  · rfl

/-- A dequeue that does not fault leaves the feedback registers. -/
theorem dequeue_fb {s u : State} {o : Option (Family × Block)} (h : dequeue s = .ok (o, u)) : u.fb = s.fb := by
  obtain ⟨-, he⟩ | ⟨-, e, -, he⟩ | ⟨-, b, -, he⟩ := dequeue_cases s <;> rw [he] at h <;> cases h
  · rfl
  · rfl

/-- Encoding a pair leaves the feedback registers. -/
theorem encodePair_fb {p : Pair} {s u : State} {o : Option (Word × Word)} (h : encodePair p s = (o, u)) :
    u.fb = s.fb := by
  obtain ⟨d, k, hframe⟩ := encodePair_frame p s
  obtain rfl : u = _ := by simpa only [h] using hframe
  rfl

/-- Encoding a block leaves the feedback registers. -/
theorem encodeBlock_fb {b : Block} {s u : State} {o : Option (List (Word × Word))} (h : encodeBlock b s = (o, u)) :
    u.fb = s.fb := by
  obtain ⟨d, k, hframe⟩ := encodeBlock_frame b s
  obtain rfl : u = _ := by simpa only [h] using hframe
  rfl

/-- The end of a cycle whose pairs were encoded leaves the feedback registers. -/
@[simp] theorem finishEncoding_fb (st : Status) (ws : List (Word × Word)) (s : State) :
    (finishEncoding st ws s).fb = s.fb := by
  simp [finishEncoding]

/-- The end of a cycle that overflowed leaves the feedback registers. -/
@[simp] theorem finishOverflow_fb (s : State) : (finishOverflow s).fb = s.fb := by
  simp [finishOverflow]

/-! Whole operations. -/

/-- The end of an `FBU`. -/
theorem finishUpdate_holdsOrConfigures (tick : Word) (total : Nat) (s : State) :
    HoldsOrConfigures s (finishUpdate tick total s) := by
  simpa [finishUpdate] using updateFeedback_fb tick total s

/-- The pair of a `DSE`. -/
theorem execDse_holdsOrConfigures (left right : Word) (s : State) : HoldsOrConfigures s (execDse left right s) := by
  refine HoldsOrConfigures.gate ?_
  split
  case h_1 u hu => simp [encodePair_fb hu]
  case h_2 u hu => simp [encodePair_fb hu]

/-- The block of a `QEN`. -/
theorem execQen_holdsOrConfigures (g : Family) (b : Block) (s : State) : HoldsOrConfigures s (execQen g b s) := by
  refine HoldsOrConfigures.gate ?_
  split
  case h_1 => exact holdsOrConfigures_fault s _
  case h_2 st u hu => simp [enqueue_fb hu]

/-- The frame of a `QDE`. -/
theorem execQde_holdsOrConfigures (s : State) : HoldsOrConfigures s (execQde s) := by
  refine HoldsOrConfigures.gate ?_
  split
  case h_1 => exact holdsOrConfigures_fault s _
  case h_2 u hu => simp [dequeue_fb hu]
  case h_3 g b u hu => simp [dequeue_fb hu]

/-- Line 8 of `PCY` leaves the feedback registers. -/
theorem enqueueCycle_fb {rate : Rate} {y : Block} {s u : State} {st : Status}
    (h : enqueueCycle rate y s = .ok (st, u)) : u.fb = s.fb := by
  unfold enqueueCycle at h
  split at h
  · cases h; rfl
  · exact enqueue_fb h

/-- Lines 5 to 9 of `PCY`: the one write is the update's. -/
theorem processBlock_holdsOrConfigures (tick : Word) (rate : Rate) (x : Block) (s : State) :
    HoldsOrConfigures s (processBlock tick rate x s) := by
  have hupdate := updateFeedback_fb tick s.q.total (oversampleForQueue rate x s.q.occ s).1
  refine HoldsOrConfigures.of_held hupdate ?_
  unfold processBlock
  dsimp only
  split
  case h_1 => exact holdsOrConfigures_fault _ _
  case h_2 st u hu => exact holdsOrConfigures_next.mpr (.inl ((u.respond_fb _).trans (enqueueCycle_fb hu)))

/-- Lines 2 to 9 of `PCY`. -/
theorem cycleBody_holdsOrConfigures (tick : Word) (raw : Block) (s : State) :
    HoldsOrConfigures s (cycleBody tick raw s) := by
  unfold cycleBody
  split
  · simp
  · split
    · simp
    · exact processBlock_holdsOrConfigures _ _ _ s

/-- The encoding of a consumer cycle. -/
theorem encodeAndFinish_holdsOrConfigures (st : Status) (b : Block) (s : State) :
    HoldsOrConfigures s (encodeAndFinish st b s) := by
  unfold encodeAndFinish
  split
  case h_1 ws u hu => simp [encodeBlock_fb hu]
  case h_2 u hu => simp [encodeBlock_fb hu]

/-- Lines 4 and 5 of `CCY`. -/
theorem playFrame_holdsOrConfigures (s : State) : HoldsOrConfigures s (playFrame s) := by
  unfold playFrame
  split
  case h_1 => exact holdsOrConfigures_fault s _
  case h_2 g b u hu => exact .of_held (.inl (dequeue_fb hu)) (encodeAndFinish_holdsOrConfigures _ _ u)
  case h_3 u hu => simp [dequeue_fb hu]

/-- Lines 2 to 5 of `CCY`. -/
theorem muteAndPlay_holdsOrConfigures (s : State) : HoldsOrConfigures s (muteAndPlay s) := by
  unfold muteAndPlay
  split_ifs
  · exact .of_held (.inl rfl) (encodeAndFinish_holdsOrConfigures _ _ (zeroModulator (enterMute s)))
  · exact playFrame_holdsOrConfigures s
  · exact .of_held (.inl rfl) (playFrame_holdsOrConfigures (leaveMute s))
  · exact encodeAndFinish_holdsOrConfigures _ _ s

/-- Line 1 of `CCY` leaves the feedback registers. -/
@[simp] theorem honourResetRequest_fb (s : State) : (honourResetRequest s).fb = s.fb := by
  unfold honourResetRequest
  split <;> rfl

/-- The declaration of an `FVD`. -/
theorem execFvd_holdsOrConfigures (rateHz depthBits : Word) (s : State) :
    HoldsOrConfigures s (execFvd rateHz depthBits s) := by
  refine HoldsOrConfigures.gate ?_
  split <;> simp

/-- The stage of an `OSR`. -/
theorem execOsr_holdsOrConfigures (a : BitVec 4) (s : State) : HoldsOrConfigures s (execOsr a s) := by
  refine HoldsOrConfigures.gate ?_
  split <;> simp

/-- The block of an `OSS`. -/
theorem execOss_holdsOrConfigures (a : BitVec 4) (b : Block) (s : State) : HoldsOrConfigures s (execOss a b s) := by
  refine HoldsOrConfigures.gate ?_
  split
  · simp
  · split <;> simp

/-- The block of an `OSA`. -/
theorem execOsa_holdsOrConfigures (c : BitVec 4) (b : Block) (s : State) : HoldsOrConfigures s (execOsa c b s) := by
  refine HoldsOrConfigures.gate ?_
  split
  · simp
  · split <;> simp

/-- The reset of a `QRS`. -/
theorem execQrs_holdsOrConfigures (s : State) : HoldsOrConfigures s (execQrs s) := by
  refine HoldsOrConfigures.gate ?_
  split <;> simp

/-- The check of an `INIT`. -/
theorem execInit_holdsOrConfigures (s : State) : HoldsOrConfigures s (execInit s) := by
  refine HoldsOrConfigures.gate ?_
  split <;> simp

/-- The read of an `RDS`. -/
theorem execRds_holdsOrConfigures (n : BitVec 16) (s : State) : HoldsOrConfigures s (execRds n s) := by
  refine HoldsOrConfigures.gate ?_
  split <;> simp

/-- The update of an `FBU`. -/
theorem execFbu_holdsOrConfigures (tick : Word) (s : State) : HoldsOrConfigures s (execFbu tick s) :=
  HoldsOrConfigures.gate (finishUpdate_holdsOrConfigures tick s.q.total s)

/-- The seed of an `FBC`. -/
theorem execFbc_holdsOrConfigures (s : State) : HoldsOrConfigures s (execFbc s) := by
  refine HoldsOrConfigures.gate ?_
  simpa using configureFeedback_fb s

/-- A producer cycle: the seed of line 1, then the rest. -/
theorem execPcy_holdsOrConfigures (tick : Word) (raw : Block) (s : State) :
    HoldsOrConfigures s (execPcy tick raw s) := by
  refine HoldsOrConfigures.gate ?_
  exact .of_held (takeSignal_fb s) (cycleBody_holdsOrConfigures tick raw (takeSignal s))

/-- A consumer cycle. -/
theorem execCcy_holdsOrConfigures (s : State) : HoldsOrConfigures s (execCcy s) := by
  refine HoldsOrConfigures.gate ?_
  exact .of_held (.inl (honourResetRequest_fb s)) (muteAndPlay_holdsOrConfigures (honourResetRequest s))

/-- A whole operation holds the feedback registers or leaves the controller configured. -/
theorem exec_holdsOrConfigures (i : Instr) (s : State) : HoldsOrConfigures s (exec i s) := by
  cases i with
  | fvd rateHz depthBits => exact execFvd_holdsOrConfigures rateHz depthBits s
  | osr a => exact execOsr_holdsOrConfigures a s
  | oss a b => exact execOss_holdsOrConfigures a b s
  | osa c b => exact execOsa_holdsOrConfigures c b s
  | qen g b => exact execQen_holdsOrConfigures g b s
  | qde => exact execQde_holdsOrConfigures s
  | qrs => exact execQrs_holdsOrConfigures s
  | dse left right => exact execDse_holdsOrConfigures left right s
  | fbc => exact execFbc_holdsOrConfigures s
  | fbu tick => exact execFbu_holdsOrConfigures tick s
  | pcy tick raw => exact execPcy_holdsOrConfigures tick raw s
  | ccy => exact execCcy_holdsOrConfigures s
  | init => exact execInit_holdsOrConfigures s
  | rds n => exact execRds_holdsOrConfigures n s
  | fvo | fvt | osz | qoc | qts | dsz | fbr =>
    -- one plain answer past the checks
    simp only [exec, execFvo, execFvt, execOsz, execQoc, execQts, execDsz, execFbr]
    exact HoldsOrConfigures.gate (by simp)

/-! Operations step by step. -/

/-- The end of an enqueue. -/
theorem endEnqueue_holdsOrConfigures (caller : EnqueueFor) (st : Status) (s : State) :
    HoldsOrConfigures s (endEnqueue caller st s) := by
  cases caller <;> simp [endEnqueue]

/-- Step 1 of `QEN`. -/
theorem beginEnqueue_holdsOrConfigures (caller : EnqueueFor) (g : Family) (b : Block) (s : State) :
    HoldsOrConfigures s (beginEnqueue caller g b s) := by
  unfold beginEnqueue
  split_ifs
  · exact endEnqueue_holdsOrConfigures caller _ s
  · exact endEnqueue_holdsOrConfigures caller _ s
  · simp

/-- Step 2 of `QEN`. -/
theorem stepEnqueueWrite_holdsOrConfigures (caller : EnqueueFor) (g : Family) (b : Block) (j : Nat) (s : State) :
    HoldsOrConfigures s (stepEnqueueWrite caller g b j s) := by
  unfold stepEnqueueWrite
  split
  · split <;> simp
  · simp

/-- The end of a dequeue. -/
theorem endDequeue_holdsOrConfigures (caller : DequeueFor) (g : Family) (b : Block) (s : State) :
    HoldsOrConfigures s (endDequeue caller g b s) := by
  cases caller <;> simp [endDequeue]

/-- Step 1 of `QDE`. -/
theorem beginDequeue_holdsOrConfigures (caller : DequeueFor) (s : State) :
    HoldsOrConfigures s (beginDequeue caller s) := by
  unfold beginDequeue
  split
  · cases caller <;> simp
  · simp

/-- Steps 2 and 3 of `QDE`. -/
theorem stepDequeueRead_holdsOrConfigures (caller : DequeueFor) (g : Family) (n : Nat) (got : Block) (s : State) :
    HoldsOrConfigures s (stepDequeueRead caller g n got s) := by
  unfold stepDequeueRead
  split
  · split <;> simp
  · simp

/-- The first step of `PCY`. -/
theorem beginCycle_holdsOrConfigures (tick : Word) (raw : Block) (s : State) :
    HoldsOrConfigures s (beginCycle tick raw s) := by
  unfold beginCycle
  split <;> simp

/-- `PCY` lines 2 to 4. -/
theorem stepCycleOccupancy_holdsOrConfigures (tick : Word) (raw : Block) (s : State) :
    HoldsOrConfigures s (stepCycleOccupancy tick raw s) := by
  unfold stepCycleOccupancy
  split
  · simp
  · split <;> simp

/-- `PCY` line 7: the write is the update's. -/
theorem stepCycleUpdate_holdsOrConfigures (tick : Word) (rate : Rate) (y : Block) (total : Nat) (s : State) :
    HoldsOrConfigures s (stepCycleUpdate tick rate y total s) := by
  refine HoldsOrConfigures.of_held (updateFeedback_fb tick total s) ?_
  unfold stepCycleUpdate
  dsimp only
  split <;> simp

/-- The first step of `CCY`. -/
theorem beginConsume_holdsOrConfigures (s : State) : HoldsOrConfigures s (beginConsume s) := by
  unfold beginConsume
  split <;> simp

/-- `CCY` lines 2 and 3. -/
theorem stepMute_holdsOrConfigures (s : State) : HoldsOrConfigures s (stepMute s) := by
  unfold stepMute
  split_ifs <;> simp

/-- `CCY` line 5. -/
theorem stepEncode_holdsOrConfigures (todo : Block) (words : List (Word × Word)) (st : Status) (s : State) :
    HoldsOrConfigures s (stepEncode todo words st s) := by
  cases todo with
  | nil => simp [stepEncode]
  | cons p rest =>
    rw [stepEncode]
    split
    case h_1 w u hu => simp [encodePair_fb hu]
    case h_2 u hu => simp [encodePair_fb hu]

/-- The next step of an operation in flight holds the feedback registers or leaves the controller configured. -/
theorem advance_holdsOrConfigures (f : Flight) (s : State) : HoldsOrConfigures s (advance f s) := by
  cases f with
  | enqWrite caller g b j => exact stepEnqueueWrite_holdsOrConfigures caller g b j s
  | enqCommit caller g b => exact .of_held (.inl rfl) (endEnqueue_holdsOrConfigures caller _ (commitEnqueue b.length s))
  | deqHeader caller => simp [advance]
  | deqRead caller g n got => exact stepDequeueRead_holdsOrConfigures caller g n got s
  | deqFamily caller g b => exact .of_held (.inl rfl) (endDequeue_holdsOrConfigures caller g b (setFamily g s))
  | fbuRest tick total => exact .of_held (.inl s.land_fb) (finishUpdate_holdsOrConfigures tick total s.land)
  | pcyZero tick raw => simp [advance]
  | pcyAsk tick raw => simp [advance]
  | pcyFeedback tick raw => simpa [advance] using configureFeedback_fb s
  | pcyOccupancy tick raw => exact stepCycleOccupancy_holdsOrConfigures tick raw s
  | pcyOversample tick rate x occ0 => simp [advance, oversampleForQueue]
  | pcyTotal tick rate y => simp [advance]
  | pcyUpdate tick rate y total => exact stepCycleUpdate_holdsOrConfigures tick rate y total s
  | pcyEnqueue rate y feedback => exact beginEnqueue_holdsOrConfigures _ _ y s
  | ccyZero => simp [advance]
  | ccyMute => exact stepMute_holdsOrConfigures s
  | ccyEntryZero => simp [advance]
  | ccyDequeue => exact beginDequeue_holdsOrConfigures _ s
  | ccyEncode todo words st => exact stepEncode_holdsOrConfigures todo words st s

/-- The first step of an operation: of the five that are more than one step, or the whole of another. -/
theorem begin_holdsOrConfigures (i : Instr) (s : State) : HoldsOrConfigures s (begin i s) := by
  cases i
  case qen g b => exact HoldsOrConfigures.gate (beginEnqueue_holdsOrConfigures _ g b s)
  case qde => exact HoldsOrConfigures.gate (beginDequeue_holdsOrConfigures _ s)
  case fbu tick =>
    rw [begin]
    exact HoldsOrConfigures.gate (by simp)
  case pcy tick raw => exact HoldsOrConfigures.gate (beginCycle_holdsOrConfigures tick raw s)
  case ccy => exact HoldsOrConfigures.gate (beginConsume_holdsOrConfigures s)
  all_goals
    rw [begin]
    exact exec_holdsOrConfigures _ s

/-- A turn with nothing in flight. -/
theorem fetch_holdsOrConfigures (g : Grain) (s : State) : HoldsOrConfigures s (fetch g s) := by
  obtain ⟨i, rest, -, h⟩ | ⟨-, h⟩ | ⟨-, h⟩ := fetch_cases g s <;> rw [h]
  · refine .of_held (.inl (s.consume_fb rest)) ?_
    cases g with
    | whole => exact exec_holdsOrConfigures i _
    | single => exact begin_holdsOrConfigures i _
  · simp
  · simp

/-- Every step holds the feedback registers or leaves the controller configured. -/
theorem step_holdsOrConfigures (s : State) : HoldsOrConfigures s (step s) := by
  obtain ⟨-, h⟩ | ⟨turn, sched, -, ⟨f, -, h⟩ | ⟨-, h⟩⟩ := step_cases s <;> rw [h]
  · simp
  · exact .of_held (.inl rfl) (advance_holdsOrConfigures f { s with sched := sched, issuer := turn.port })
  · exact .of_held (.inl rfl) (fetch_holdsOrConfigures _ { s with sched := sched, issuer := turn.port })

/-- A step after which the controller is unconfigured has held its registers. -/
theorem step_fb_of_unconfigured {s t : State} (h : step s = .next t) (ht : t.fb.configured = false) : t.fb = s.fb := by
  obtain hheld | hconf := step_holdsOrConfigures s t h
  · exact hheld
  · simp [ht] at hconf

/-! The read of the feedback value. -/

/-- The dispatch of `FBR`. -/
theorem exec_fbr (s : State) : exec .fbr s = execFbr s := rfl

/-- `FBR` is accepted on the `P` and the `T` port of a `READY` block (R270). -/
theorem fbr_accepted {s : State} (h : Ready .p s ∨ Ready .t s) : s.issuer ∈ ports .fbr ∧ s.life = .ready := by
  obtain ⟨hport, hlife⟩ | ⟨hport, hlife⟩ := h <;> simp [hport, hlife, ports]

/-- The `C` port does not accept `FBR` (R270). -/
theorem fbr_notC {s : State} (h : s.issuer = .c) : s.issuer ∉ ports .fbr := by simp [h, ports]

/-- How `FBR` ends past the checks (R203). -/
theorem fbr_ends {s : State} (h : Ready .p s ∨ Ready .t s) :
    ∃ t, exec .fbr s = .next t ∧ Ends [] [statusWord .ok 0, natWord s.fb.value] [] 0 s t := by
  obtain ⟨hport, hlife⟩ := fbr_accepted h
  rw [exec_fbr, execFbr]
  exact State.gate_count (fun s => s.fb.value) hport (.inl hlife)

/-- Settles O47: the read is a plain answer, and a step that leaves the controller unconfigured held its registers. -/
theorem fbrReadsTheValue : Obligations.FbrReadsTheValue := by
  refine ⟨encode_of_formatZ rfl, fun s => rfl, fun s hc => exec_wrongPort (i := .fbr) (fbr_notC hc),
    fun s hs => fbr_ends hs, fun cfg => rfl, fun s t hzero hstep ht => ?_⟩
  have hheld := step_fb_of_unconfigured hstep ht
  rw [hheld] at ht ⊢
  exact hzero ht

end Sys2Proof.Machine
end

section
/-! Proofs about the system operations (spec/45_pipeline.md R232 to R236): what the check of the configuration accepts,
how `INIT` ends, and the statement of R233. -/

namespace Sys2Proof

/-! Statements about every member of a closed set, member by member. -/

/-- A property of every depth, depth by depth. -/
theorem Depth.forall_iff {P : Depth → Prop} : (∀ d, P d) ↔ P .d16 ∧ P .d24 ∧ P .d32 :=
  ⟨fun h => ⟨h _, h _, h _⟩, fun ⟨h16, h24, h32⟩ d => by cases d <;> assumption⟩

/-- A property of every stage, stage by stage. -/
theorem Stage.forall_iff {P : Stage → Prop} : (∀ st, P st) ↔ P .s0 ∧ P .s1 ∧ P .s2 :=
  ⟨fun h => ⟨h _, h _, h _⟩, fun ⟨h0, h1, h2⟩ st => by cases st <;> assumption⟩

end Sys2Proof

namespace Sys2Proof.Machine

/-! The invariants of R233 that the check tests member by member. -/

/-- Invariant (5), with the coefficients of every stage counted. -/
theorem stagesFit_iff (c : Config) :
    stagesFit c = true ↔
      1 ≤ c.stage.s0.taps ∧ c.stage.s0.taps < c.stage.s1.taps ∧ c.stage.s1.taps < c.stage.s2.taps ∧
        ∀ st, (c.stage.get st).coef.length = (c.stage.get st).taps := by
  rw [Stage.forall_iff]
  exact decide_eq_true_iff

/-- Invariant (6), for every stage. -/
theorem shiftsFit_iff (c : Config) :
    (c.stage.s0.shift ≤ 31 ∧ c.stage.s1.shift ≤ 31 ∧ c.stage.s2.shift ≤ 31) ↔ ∀ st, (c.stage.get st).shift ≤ 31 := by
  rw [Stage.forall_iff]
  exact Iff.rfl

/-- A value for each depth is injective in the depth when the three values differ. -/
theorem PerDepth.get_injective_iff {α : Type} (t : PerDepth α) :
    (∀ d d', t.get d = t.get d' → d = d') ↔ t.d16 ≠ t.d24 ∧ t.d16 ≠ t.d32 ∧ t.d24 ≠ t.d32 := by
  refine ⟨fun h => ⟨fun e => ?_, fun e => ?_, fun e => ?_⟩, fun ⟨h1624, h1632, h2432⟩ d d' e => ?_⟩
  · cases h .d16 .d24 e
  · cases h .d16 .d32 e
  · cases h .d24 .d32 e
  · cases d <;> cases d' <;> simp_all [PerDepth.get, eq_comm]

/-- Invariant (14): the ratios are positive and distinct. -/
theorem ratiosFit_iff (t : PerDepth Nat) :
    (0 < t.d16 ∧ 0 < t.d24 ∧ 0 < t.d32 ∧ t.d16 ≠ t.d24 ∧ t.d16 ≠ t.d32 ∧ t.d24 ≠ t.d32) ↔
      (∀ d, 0 < t.get d) ∧ ∀ d d', t.get d = t.get d' → d = d' := by
  rw [PerDepth.get_injective_iff, Depth.forall_iff, and_assoc, and_assoc]
  exact Iff.rfl

/-- Invariant (16) for one rate and depth. -/
theorem nominalFits_iff (c : Config) (r : Rate) (d : Depth) :
    nominalFits c r d = true ↔
      (c.nominal.get r).get d + (c.nominal.get r).get d * c.fbBandPpm / 1000000 < 2 ^ 32 :=
  decide_eq_true_iff

/-- Invariant (16), for every rate and depth. -/
theorem feedbackFits_iff (c : Config) :
    feedbackFits c = true ↔
      ∀ r, c.fbTarget.get r < 2 ^ 32 ∧
        ∀ d, (c.nominal.get r).get d + (c.nominal.get r).get d * c.fbBandPpm / 1000000 < 2 ^ 32 := by
  simp only [feedbackFits, List.all_eq_true, Bool.and_eq_true, nominalFits_iff, decide_eq_true_eq, Rate.mem_all,
    Depth.mem_all, true_imp_iff]
  exact forall_congr' fun r => and_comm

/-- The check accepts exactly the configurations with the sixteen invariants (R233). -/
theorem configOk_iff (c : Config) :
    configOk c = true ↔
      (2 ≤ c.nSlots ∧ c.nSlots ≤ 255) ∧
      (1 ≤ c.frameMax ∧ c.frameMax ≤ 65535) ∧
      (0 < c.playThreshold ∧ c.playThreshold < c.nSlots) ∧
      (1 ≤ c.silenceLen ∧ c.silenceLen ≤ c.frameMax) ∧
      (1 ≤ c.stage.s0.taps ∧ c.stage.s0.taps < c.stage.s1.taps ∧ c.stage.s1.taps < c.stage.s2.taps ∧
        ∀ st, (c.stage.get st).coef.length = (c.stage.get st).taps) ∧
      (∀ st, (c.stage.get st).shift ≤ 31) ∧
      c.dsM ≤ 5 ∧
      (4 ≤ c.dsW ∧ c.dsW ≤ 6) ∧
      c.dsM < c.dsW ∧
      ((c.dsN = 4 ∨ c.dsN = 8) ∧ c.dsN * c.dsW ≤ 32) ∧
      (c.dsLerp = 0 ∨ c.dsLerp = 1) ∧
      (25 ≤ c.dsInBits ∧ c.dsInBits ≤ c.intBits) ∧
      (0 < c.fRef ∧ 0 < c.fvWordPeriods ∧ 0 < c.fvBitPeriods) ∧
      ((∀ d, 0 < c.ratio.get d) ∧ ∀ d d', c.ratio.get d = c.ratio.get d' → d = d') ∧
      0 < c.fbErrScale ∧
      ∀ r, c.fbTarget.get r < 2 ^ 32 ∧
        ∀ d, (c.nominal.get r).get d + (c.nominal.get r).get d * c.fbBandPpm / 1000000 < 2 ^ 32 := by
  rw [← stagesFit_iff, ← shiftsFit_iff, ← ratiosFit_iff, ← feedbackFits_iff]
  simp only [configOk, Bool.and_eq_true, decide_eq_true_eq, and_assoc]

/-! `INIT`. -/

/-- How an operation ends whose body wrote `sys.life` and nothing else. -/
theorem Ends.of_life (s : State) (life : Life) (st : Status) :
    Ends [.life] [statusWord st 0] [] 0 s (({ s with life := life } : State).respond (Reply.plain st [])) := by
  refine Ends.of_respond (Reply.words_plain st []) (fun x hx => ?_) rfl rfl rfl (fun _ => rfl)
    (List.append_nil _).symm rfl
  cases x
  case life => simp at hx
  all_goals simp [Item.same]

/-- The dispatch of `INIT`. -/
theorem exec_init (s : State) : exec .init s = execInit s := rfl

/-- What `INIT` does past the checks, which it passes in every lifecycle (R232). -/
theorem exec_init_eq {s : State} (h : s.issuer = .p) :
    exec .init s =
      if s.life = .uninit then ({ s with life := initLife s.cfg } : State).raise (initStatus s.cfg) []
      else s.raise .illegal [] := by
  rw [exec_init, execInit, State.gate_open _ (by simp [h, ports]) (.inr rfl)]

/-- How `INIT` ends in `UNINIT`: by the answer of the check. -/
theorem init_uninit_ends {s : State} (h : s.issuer = .p) (hlife : s.life = .uninit) :
    ∃ t, exec .init s = .next t ∧ t.life = initLife s.cfg ∧ Ends [.life] [statusWord (initStatus s.cfg) 0] [] 0 s t :=
  ⟨_, (exec_init_eq h).trans (if_pos hlife), by simp, Ends.of_life s _ _⟩

/-- How `INIT` ends in any other lifecycle: refused. -/
theorem init_again_ends {s : State} (h : s.issuer = .p) (hlife : s.life ≠ .uninit) :
    ∃ t, exec .init s = .next t ∧ Ends [] [statusWord .illegal 0] [] 0 s t :=
  ⟨_, (exec_init_eq h).trans (if_neg hlife), Ends.of_raise s .illegal []⟩

/-- Settles O56, by the lifecycle and the answer of the check. -/
theorem initChecksTheConfiguration : Obligations.InitChecksTheConfiguration := by
  refine ⟨configOk_iff, fun s hport => ?_⟩
  by_cases hlife : s.life = .uninit
  · obtain ⟨t, hexec, htlife, hends⟩ := init_uninit_ends hport hlife
    refine ⟨t, hexec, fun _ hok => ?_, fun _ hbad => ?_, fun hother => absurd hlife hother⟩
    · rw [initLife, if_pos hok] at htlife
      rw [initStatus, if_pos hok] at hends
      exact ⟨htlife, hends⟩
    · rw [initLife, if_neg (by simp [hbad])] at htlife
      rw [initStatus, if_neg (by simp [hbad])] at hends
      exact ⟨htlife, hends⟩
  · obtain ⟨t, hexec, hends⟩ := init_again_ends hport hlife
    exact ⟨t, hexec, fun h => absurd h hlife, fun h => absurd h hlife, fun _ => hends⟩

end Sys2Proof.Machine
end

section
/-! Proofs about the read view of the status registers (spec/10_state.md section 8, spec/45_pipeline.md R236): fields of
a word that is written as its fields one after another, the layout of each register, how `RDS` ends, and the statement
of R46 and R236. -/

namespace Sys2Proof

/-! Fields of a word written as its fields, the highest first. The lowest field is
`BitVec.extractLsb'_append_eq_right`. -/

/-- A field above the lowest one is read from what stands above the lowest one. -/
theorem field_above {m n start len : Nat} {hi : BitVec m} {lo : BitVec n} {v : BitVec len}
    (h : n.ble start = true) (hv : hi.extractLsb' (start - n) len = v) : (hi ++ lo).extractLsb' start len = v :=
  (BitVec.extractLsb'_append_eq_of_le (Nat.le_of_ble_eq_true h)).trans hv

/-- A bit above the lowest field is read from what stands above the lowest field. -/
theorem flag_above {m n i : Nat} {hi : BitVec m} {lo : BitVec n} {b : Bool}
    (h : n.ble i = true) (hb : hi.getLsbD (i - n) = b) : (hi ++ lo).getLsbD i = b := by
  rw [BitVec.getLsbD_append, if_neg (Nat.not_lt.mpr (Nat.le_of_ble_eq_true h)), hb]

/-- A flag that is the lowest field is bit 0. -/
theorem flag_lowest {m : Nat} {hi : BitVec m} {b : Bool} : (hi ++ BitVec.ofBool b).getLsbD 0 = b := by
  rw [BitVec.getLsbD_append, if_pos Nat.one_pos]
  simp

/-- The `imm` field of a command word fills bits 15:0, which are 0 in the word without it (R92). -/
theorem Fields.toWord_eq_or_imm (op : BitVec 8) (a b : BitVec 4) (imm : BitVec 16) :
    Fields.toWord ⟨op, a, b, imm⟩ = Fields.toWord ⟨op, a, b, 0⟩ ||| imm.setWidth 32 := by
  refine BitVec.eq_of_getLsbD_eq fun i hi => ?_
  simp only [Fields.toWord, BitVec.getLsbD_or, BitVec.getLsbD_setWidth, BitVec.getLsbD_append]
  split_ifs with himm
  · simp [hi]
  all_goals simp [show imm.getLsbD i = false from BitVec.getLsbD_of_ge imm _ (by omega)]

/-- The words of `RDS`: its row's match word with the register's number in bits 15:0 (R93, R94). -/
theorem encode_rds (n : BitVec 16) : encode (.rds n) = [0x71000000 ||| n.setWidth 32] :=
  congrArg (· :: []) ((Fields.toWord_eq_or_imm Row.rds.op 0 0 n).trans (congrArg (· ||| _) (Row.toWord_op .rds)))

end Sys2Proof

namespace Sys2Proof.Machine

open BitVec (extractLsb'_append_eq_right extractLsb'_eq_self)

/-! The layout of each register that has fields (R46). -/

/-- The fields of `FMT`. -/
theorem fmtWord_fields (s : State) :
    (fmtWord s).extractLsb' 0 4 = rateCode s.fmt.rate ∧ (fmtWord s).extractLsb' 4 2 = depthCode s.fmt.depth ∧
    (fmtWord s).getLsbD 6 = s.fmt.valid ∧ (fmtWord s).getLsbD 7 = s.fv.updated ∧ (fmtWord s).extractLsb' 8 24 = 0 :=
  ⟨extractLsb'_append_eq_right,
   field_above rfl <| extractLsb'_append_eq_right,
   flag_above rfl <| flag_above rfl <| flag_lowest,
   flag_above rfl <| flag_above rfl <| flag_above rfl <| flag_lowest,
   field_above rfl <| field_above rfl <| field_above rfl <| field_above rfl <| extractLsb'_eq_self⟩

/-- The fields of `QOCC`. -/
theorem qoccWord_fields (s : State) :
    (qoccWord s).extractLsb' 0 8 = BitVec.ofNat 8 s.q.occ ∧ (qoccWord s).extractLsb' 8 24 = 0 :=
  ⟨extractLsb'_append_eq_right, field_above rfl <| extractLsb'_eq_self⟩

/-- The fields of `QCUR`. -/
theorem qcurWord_fields (s : State) :
    (qcurWord s).extractLsb' 0 8 = BitVec.ofNat 8 s.q.wc ∧ (qcurWord s).extractLsb' 8 8 = BitVec.ofNat 8 s.q.rc ∧
    (qcurWord s).extractLsb' 16 16 = 0 :=
  ⟨extractLsb'_append_eq_right,
   field_above rfl <| extractLsb'_append_eq_right,
   field_above rfl <| field_above rfl <| extractLsb'_eq_self⟩

/-- The fields of `CTL`. -/
theorem ctlWord_fields (s : State) :
    (ctlWord s).getLsbD 0 = s.mute.bit ∧ (ctlWord s).getLsbD 1 = s.dsResetReq ∧ (ctlWord s).getLsbD 2 = s.family.bit ∧
    (ctlWord s).extractLsb' 3 2 = s.life.code ∧ (ctlWord s).getLsbD 5 = s.fb.haveLast ∧
    (ctlWord s).getLsbD 6 = s.fb.configured ∧ (ctlWord s).extractLsb' 7 25 = 0 :=
  ⟨flag_lowest,
   flag_above rfl <| flag_lowest,
   flag_above rfl <| flag_above rfl <| flag_lowest,
   field_above rfl <| field_above rfl <| field_above rfl <| extractLsb'_append_eq_right,
   flag_above rfl <| flag_above rfl <| flag_above rfl <| flag_above rfl <| flag_lowest,
   flag_above rfl <| flag_above rfl <| flag_above rfl <| flag_above rfl <| flag_above rfl <| flag_lowest,
   field_above rfl <| field_above rfl <| field_above rfl <| field_above rfl <| field_above rfl <| field_above rfl <|
     extractLsb'_eq_self⟩

/-- The fields of `FVPREV`. -/
theorem fvprevWord_fields (s : State) :
    (fvprevWord s).extractLsb' 0 4 = rateCode s.fv.prevRate ∧
    (fvprevWord s).extractLsb' 4 2 = depthCode s.fv.prevDepth ∧ (fvprevWord s).extractLsb' 6 26 = 0 :=
  ⟨extractLsb'_append_eq_right,
   field_above rfl <| extractLsb'_append_eq_right,
   field_above rfl <| field_above rfl <| extractLsb'_eq_self⟩

/-- The fields of `CFG0`. -/
theorem cfg0Word_fields (c : Config) :
    (cfg0Word c).extractLsb' 0 8 = configField 8 0 c.nSlots ∧
    (cfg0Word c).extractLsb' 8 8 = configField 8 1 c.playThreshold ∧
    (cfg0Word c).extractLsb' 16 3 = configField 3 2 c.dsM ∧ (cfg0Word c).extractLsb' 19 3 = configField 3 3 c.dsW ∧
    (cfg0Word c).extractLsb' 22 4 = configField 4 4 c.dsN ∧ (cfg0Word c).extractLsb' 26 1 = configField 1 5 c.dsLerp ∧
    (cfg0Word c).extractLsb' 27 5 = 0 :=
  ⟨extractLsb'_append_eq_right,
   field_above rfl <| extractLsb'_append_eq_right,
   field_above rfl <| field_above rfl <| extractLsb'_append_eq_right,
   field_above rfl <| field_above rfl <| field_above rfl <| extractLsb'_append_eq_right,
   field_above rfl <| field_above rfl <| field_above rfl <| field_above rfl <| extractLsb'_append_eq_right,
   field_above rfl <| field_above rfl <| field_above rfl <| field_above rfl <| field_above rfl <|
     extractLsb'_append_eq_right,
   field_above rfl <| field_above rfl <| field_above rfl <| field_above rfl <| field_above rfl <| field_above rfl <|
     extractLsb'_eq_self⟩

/-- The fields of `CFG1`. -/
theorem cfg1Word_fields (c : Config) :
    (cfg1Word c).extractLsb' 0 16 = configField 16 6 c.frameMax ∧
    (cfg1Word c).extractLsb' 16 16 = configField 16 7 c.silenceLen :=
  ⟨extractLsb'_append_eq_right, field_above rfl <| extractLsb'_eq_self⟩

/-! What a field shows. -/

/-- A field that shows a configuration parameter shows its number, when that fits. -/
theorem toNat_of_configField {w k n : Nat} {field : BitVec w} (hfield : field = configField w k n) (h : n < 2 ^ w) :
    field.toNat = n := by
  rw [hfield, configField, if_pos h, BitVec.toNat_ofNat, Nat.mod_eq_of_lt h]

/-- The mute bit is set in `MUTED` (R40). -/
theorem Mute.bit_eq_true_iff {m : Mute} : m.bit = true ↔ m = .muted := by cases m <;> decide

/-- The family bit is set for the 48 kHz family (R35). -/
theorem Family.bit_eq_true_iff {g : Family} : g.bit = true ↔ g = .f48 := by cases g <;> decide

/-! `RDS`. -/

/-- The registers are numbered 0 to 13 (R46). -/
theorem statusRegister_isSome_iff {s : State} {n : Nat} : (statusRegister s n).isSome ↔ n ≤ 13 := by
  constructor
  · contrapose!
    intro h
    unfold statusRegister
    split <;> simp at h ⊢
  · intro h
    interval_cases n <;> rfl

/-- The dispatch of `RDS`. -/
theorem exec_rds (n : BitVec 16) (s : State) : exec (.rds n) s = execRds n s := rfl

/-- Every port accepts `RDS` (R270). -/
theorem mem_ports_rds (x : Port) : x ∈ ports .rds := by cases x <;> decide

/-- What `RDS` of a register does, on every port and in every lifecycle (R236). -/
theorem exec_rds_register {s : State} {n : BitVec 16} {w : Word} (h : statusRegister s n.toNat = some w) :
    exec (.rds n) s = s.done [w] := by
  rw [exec_rds, execRds, State.gate_open _ (mem_ports_rds _) (.inr rfl), h]

/-- What `RDS` of a reserved number does, on every port and in every lifecycle (R236). -/
theorem exec_rds_reserved {s : State} {n : BitVec 16} (h : statusRegister s n.toNat = none) :
    exec (.rds n) s = s.raise .illegal [0] := by
  rw [exec_rds, execRds, State.gate_open _ (mem_ports_rds _) (.inr rfl), h]

/-- How `RDS` of a register ends. -/
theorem rds_register_ends (s : State) {n : BitVec 16} (h : n.toNat ≤ 13) :
    ∃ w t, statusRegister s n.toNat = some w ∧ exec (.rds n) s = .next t ∧ Ends [] [statusWord .ok 0, w] [] 0 s t := by
  obtain ⟨w, hw⟩ := Option.isSome_iff_exists.mp (statusRegister_isSome_iff.mpr h)
  exact ⟨w, _, hw, exec_rds_register hw, Ends.of_raise s .ok [w]⟩

/-- How `RDS` of a reserved number ends. -/
theorem rds_reserved_ends (s : State) {n : BitVec 16} (h : 13 < n.toNat) :
    ∃ t, exec (.rds n) s = .next t ∧ Ends [] [statusWord .illegal 0, 0] [] 0 s t := by
  have hnone : statusRegister s n.toNat = none :=
    Option.not_isSome_iff_eq_none.mp (mt statusRegister_isSome_iff.mp (Nat.not_le.mpr h))
  exact ⟨_, exec_rds_reserved hnone, Ends.of_raise s .illegal [0]⟩

/-- Settles O57: the number decides how `RDS` ends, and each register reads as its layout says. -/
theorem rdsReadsARegister : Obligations.RdsReadsARegister := by
  refine ⟨encode_rds, fun s n => rfl, fun s n => rds_register_ends s, fun s n => rds_reserved_ends s, fun s => ?_⟩
  obtain ⟨hmute, hrequest, hfamily, hlife, hctl⟩ := ctlWord_fields s
  obtain ⟨hslots, hthreshold, horder, hwidth, hcodes, hlerp, hcfg0⟩ := cfg0Word_fields s.cfg
  obtain ⟨hframe, hsilence⟩ := cfg1Word_fields s.cfg
  refine ⟨⟨_, rfl, fmtWord_fields s⟩, ⟨_, rfl, qoccWord_fields s⟩, rfl, ⟨_, rfl, qcurWord_fields s⟩, ?ctl,
    rfl, rfl, rfl, rfl, rfl, rfl, ⟨_, rfl, fvprevWord_fields s⟩, ?cfg0, ?cfg1⟩
  case ctl =>
    refine ⟨_, rfl, by rw [hmute, Mute.bit_eq_true_iff], hrequest, by rw [hfamily, Family.bit_eq_true_iff], ?_, hctl⟩
    rw [hlife]
    cases s.life <;> rfl
  case cfg0 =>
    exact ⟨_, rfl, toNat_of_configField hslots, toNat_of_configField hthreshold, toNat_of_configField horder,
      toNat_of_configField hwidth, toNat_of_configField hcodes, toNat_of_configField hlerp, hcfg0⟩
  case cfg1 => exact ⟨_, rfl, toNat_of_configField hframe, toNat_of_configField hsilence⟩

end Sys2Proof.Machine
end

section
/-! Proofs about the lifecycle check before an operation (spec/60_exceptions.md R259, R262): which operations run in
every lifecycle, the refusal of any other, and the statement of R259. -/

namespace Sys2Proof.Machine

/-- `INIT` and `RDS` alone execute in every value of `sys.life` (R23, R236). -/
theorem runsUnready_iff {row : Row} : runsUnready row = true ↔ row = .init ∨ row = .rds := by
  cases row <;> decide

/-- Any operation but `INIT` and `RDS` on an accepting port of a block that is not `READY` ends in the refusal of its
row. -/
theorem exec_notReady {s : State} {i : Instr} (hport : s.issuer ∈ ports i.row) (hinit : i.row ≠ .init)
    (hrds : i.row ≠ .rds) (hlife : s.life ≠ .ready) :
    exec i s = s.raise .notReady (refusedResults i.row s) := by
  have hneeds : runsUnready i.row = false :=
    Bool.eq_false_iff.mpr fun h => (runsUnready_iff.mp h).elim hinit hrds
  obtain ⟨body, hexec⟩ := exec_gated i s
  rw [hexec, State.gate_notReady body hport hlife hneeds]

/-- Settles O12: the lifecycle check refuses before the body runs, and a refusal changes nothing but the answer. -/
theorem notReadyIsRefused : Obligations.NotReadyIsRefused := by
  intro i s hport hinit hrds hlife
  have hready : s.life ≠ .ready := by
    obtain h | h := hlife <;> simp [h]
  exact ⟨_, refusedResults i.row s, exec_notReady hport hinit hrds hready, refusedResults_length i.row s,
    Ends.of_raise s .notReady _⟩

end Sys2Proof.Machine
end

section
/-! Proofs about hardware reset (spec/70_reset_and_hazards.md R290): the cascade and the status registers right after it,
and a port on which nothing was delivered waiting for its commands. -/

namespace Sys2Proof.Machine

/-! What a reset block holds. -/

/-- Every stage of the cascade is in its reset state (R31). -/
theorem resetWith_os_get (cfg : Config) (st : Stage) :
    (State.resetWith cfg).os.get st = FilterState.zero (cfg.lineLength st) :=
  cascadeZero_get cfg st

/-- No format is active or pending: `FMT` reads 0 (R25, R27, R46). -/
theorem fmtWord_resetWith (cfg : Config) : fmtWord (State.resetWith cfg) = 0 := by
  simp [fmtWord, State.resetWith, depthCode, rateCode]

/-- The queue is empty: `QOCC` reads 0 (R37, R46). -/
theorem qoccWord_resetWith (cfg : Config) : qoccWord (State.resetWith cfg) = 0 := by
  simp [qoccWord, State.resetWith, Queue.atReset]

/-- Both cursors are at slot 0: `QCUR` reads 0 (R36, R46). -/
theorem qcurWord_resetWith (cfg : Config) : qcurWord (State.resetWith cfg) = 0 := by
  simp [qcurWord, State.resetWith, Queue.atReset]

/-- Of the control flags and the lifecycle only the mute bit is set (R40, R46). -/
theorem ctlWord_resetWith (cfg : Config) : ctlWord (State.resetWith cfg) = 1 := by
  simp [ctlWord, State.resetWith, Feedback.atReset, Life.code, Family.bit, Mute.bit]

/-- No format was observed yet: `FVPREV` reads 0 (R26, R46). -/
theorem fvprevWord_resetWith (cfg : Config) : fvprevWord (State.resetWith cfg) = 0 := by
  simp [fvprevWord, State.resetWith, depthCode, rateCode]

/-- The status registers of a reset block that show neither the control flags nor the configuration are 0 (R46). -/
theorem statusRegister_resetWith_zero (cfg : Config) {n : Nat} (h : n ∈ [0, 1, 2, 3, 5, 6, 7, 8, 9, 10, 11]) :
    statusRegister (State.resetWith cfg) n = some 0 := by
  have hn : n = 0 ∨ n = 1 ∨ n = 3 ∨ n = 11 ∨ n ∈ [2, 5, 6, 7, 8, 9, 10] := by
    simp only [List.mem_cons, List.not_mem_nil, or_false] at h ⊢
    omega
  obtain rfl | rfl | rfl | rfl | hnumber := hn
  · exact congrArg some (fmtWord_resetWith cfg)
  · exact congrArg some (qoccWord_resetWith cfg)
  · exact congrArg some (qcurWord_resetWith cfg)
  · exact congrArg some (fvprevWord_resetWith cfg)
  · -- The registers that show one number each: `QTOT` and those of the feedback controller.
    simp only [List.mem_cons, List.not_mem_nil, or_false] at hnumber
    obtain rfl | rfl | rfl | rfl | rfl | rfl | rfl := hnumber <;> rfl

/-! Waiting for a command. -/

/-- Whose turn it is and what is scheduled after it are no port's state. -/
@[simp] theorem State.port_of_turn (s : State) (sched : List Turn) (issuer x : Port) :
    ({ s with sched := sched, issuer := issuer } : State).port x = s.port x := by
  cases x <;> rfl

/-- With no word delivered on the issuing port there is no command to read (R290). -/
theorem fetch_of_input_nil {g : Grain} {s : State} (h : (s.port s.issuer).input = []) : fetch g s = .next s := by
  simp [fetch, h, decode]

/-- A port with nothing delivered and nothing in flight waits at its turn. -/
theorem step_of_port_empty {s : State} {turn : Turn} {sched : List Turn} (hsched : s.sched = turn :: sched)
    (hinput : (s.port turn.port).input = []) (hflight : (s.port turn.port).flight = none) :
    step s = .next { s with sched := sched, issuer := turn.port } := by
  have hfetch : step s = fetch turn.grain { s with sched := sched, issuer := turn.port } := by
    simp [step, hsched, takeTurn, hflight]
  rw [hfetch]
  exact fetch_of_input_nil (by simpa using hinput)

/-- Settles O9: each register is read off the reset state, and a block without commands waits at every port's turn. -/
theorem resetRegisters : Obligations.ResetRegisters := by
  refine ⟨fun cfg => ?registers, fun s turn sched hsched hidle => ?waits⟩
  case registers =>
    have hcascade (st : Stage) : ((State.resetWith cfg).os.get st).dl =
        List.replicate (2 * (cfg.stage.get st).taps) ⟨0, 0⟩ ∧ ((State.resetWith cfg).os.get st).cur = 0 := by
      rw [resetWith_os_get]
      exact ⟨rfl, rfl⟩
    have hctl : statusRegister (State.resetWith cfg) 4 = some 1 := congrArg some (ctlWord_resetWith cfg)
    exact ⟨rfl, rfl, rfl, hcascade,
      -- the modulator, the queue, the output side and its request, the feedback controller, the configuration
      rfl, rfl, rfl, rfl,
      rfl, rfl, rfl, rfl, rfl, rfl,
      rfl, rfl, rfl,
      rfl, rfl, rfl, rfl, rfl, rfl, rfl, rfl,
      rfl,
      fun n => statusRegister_resetWith_zero cfg, hctl, rfl, rfl⟩
  case waits =>
    obtain ⟨hinput, hflight⟩ := hidle turn.port
    exact step_of_port_empty hsched hinput hflight

end Sys2Proof.Machine
end

section
/-! Proofs about the encoding (spec/30_encoding.md): which row a command word selects, what is read after it, and the
statements of sections 1 to 3, 6 and 7. -/

namespace Sys2Proof

/-! The row that fields select. -/

/-- A row whose opcode and format agree with the fields (R93, R94). -/
def Row.Accepts (row : Row) (f : Fields) : Prop := row.op = f.op ∧ row.format.accepts f = true

/-- The test with which the decoder searches the rows. -/
def Row.test (f : Fields) (row : Row) : Bool := row.op == f.op && row.format.accepts f

/-- The decoder's test decides it. -/
theorem Row.test_iff {f : Fields} {row : Row} : Row.test f row = true ↔ row.Accepts f := by
  rw [Row.test, Bool.and_eq_true, beq_iff_eq, Row.Accepts]

/-- The row that the search finds, and the two reasons why none is found (R104). -/
theorem rowOf_eq (f : Fields) :
    rowOf f =
      match Row.all.find? (Row.test f) with
      | some row => .ok row
      | none =>
        if Row.all.any (fun row => row.op == f.op) then .error .unusedFieldNotZero else .error .unassignedOpcode := rfl

/-- The search list of the rows has all of them. -/
theorem Row.mem_all (row : Row) : row ∈ Row.all := by cases row <;> decide

/-- An opcode is one row's, but for `OSR` and `OSS` (R94). -/
theorem Row.eq_of_op_eq {row row' : Row} (h : row.op = row'.op) :
    row = row' ∨ (row = .osr ∧ row' = .oss) ∨ (row = .oss ∧ row' = .osr) := by
  revert h
  cases row <;> cases row' <;> decide

/-- `OSR` is tried before `OSS` (R94). -/
theorem osr_rejects_of_find?_oss {p : Row → Bool} (h : Row.all.find? p = some .oss) : p .osr = false := by
  obtain ⟨-, i, hi, hoss, hbefore⟩ := List.find?_eq_some_iff_getElem.mp h
  have hplace : i = 4 := by
    simp only [Row.all, List.length_cons, List.length_nil] at hi
    interval_cases i <;> simp_all [Row.all]
  subst hplace
  simpa [Row.all] using hbefore 3 (by decide)

/-- Fields select a row exactly when the row accepts them, `OSR` before `OSS` (R94). -/
theorem rowOf_eq_ok_iff {f : Fields} {row : Row} :
    rowOf f = .ok row ↔ row.Accepts f ∧ (row = .oss → ¬ Row.osr.Accepts f) := by
  have selects {row : Row} (h : Row.all.find? (Row.test f) = some row) :
      row.Accepts f ∧ (row = .oss → ¬ Row.osr.Accepts f) := by
    refine ⟨Row.test_iff.mp (List.find?_some h), fun hoss => ?_⟩
    subst hoss
    rw [← Row.test_iff, osr_rejects_of_find?_oss h]
    simp
  have found : rowOf f = .ok row ↔ Row.all.find? (Row.test f) = some row := by
    rw [rowOf_eq]
    split
    · rename_i row' h
      rw [h]
      simp
    · rename_i h
      rw [h]
      split <;> simp
  rw [found]
  refine ⟨selects, fun ⟨haccepts, hfirst⟩ => ?_⟩
  obtain ⟨row', hrow'⟩ := Option.isSome_iff_exists.mp
    (List.find?_isSome.mpr ⟨row, Row.mem_all row, Row.test_iff.mpr haccepts⟩)
  obtain ⟨haccepts', hfirst'⟩ := selects hrow'
  obtain rfl | ⟨rfl, rfl⟩ | ⟨rfl, rfl⟩ := Row.eq_of_op_eq (haccepts'.1.trans haccepts.1.symm)
  · exact hrow'
  · exact absurd haccepts' (hfirst rfl)
  · exact absurd haccepts (hfirst' rfl)

/-- No row is selected exactly when none accepts the fields. -/
theorem find?_rows_eq_none_iff {f : Fields} :
    Row.all.find? (Row.test f) = none ↔ ∀ row : Row, ¬ row.Accepts f := by
  rw [List.find?_eq_none]
  exact ⟨fun h row haccepts => h row row.mem_all (Row.test_iff.mpr haccepts),
    fun h row _ htest => h row (Row.test_iff.mp htest)⟩

/-- The rows with an opcode, searched for. -/
theorem any_rows_iff {f : Fields} : Row.all.any (fun row => row.op == f.op) = true ↔ ∃ row : Row, row.op = f.op := by
  rw [List.any_eq_true]
  exact ⟨fun ⟨row, _, h⟩ => ⟨row, beq_iff_eq.mp h⟩, fun ⟨row, h⟩ => ⟨row, row.mem_all, beq_iff_eq.mpr h⟩⟩

/-- An unassigned opcode is one that no row has (R104). -/
theorem rowOf_eq_unassigned_iff {f : Fields} :
    rowOf f = .error .unassignedOpcode ↔ ∀ row : Row, row.op ≠ f.op := by
  rw [rowOf_eq]
  split
  case h_1 row h =>
    exact iff_of_false (by simp) fun hnone => hnone row (Row.test_iff.mp (List.find?_some h)).1
  case h_2 h =>
    split
    case isTrue hany =>
      obtain ⟨row, hop⟩ := any_rows_iff.mp hany
      exact iff_of_false (by simp) fun hnone => hnone row hop
    case isFalse hany =>
      exact iff_of_true rfl fun row hop => hany (any_rows_iff.mpr ⟨row, hop⟩)

/-- The other unmatched words have an assigned opcode (R104). -/
theorem rowOf_eq_unused_iff {f : Fields} :
    rowOf f = .error .unusedFieldNotZero ↔ (∃ row : Row, row.op = f.op) ∧ ∀ row : Row, ¬ row.Accepts f := by
  rw [← any_rows_iff, ← find?_rows_eq_none_iff]
  rw [rowOf_eq]
  split
  case h_1 row h => simp [h]
  case h_2 h => split <;> simp_all

/-! Masks and matches. -/

/-- Masking a command word masks its fields (R92). -/
theorem Fields.toWord_and (f g : Fields) :
    f.toWord &&& g.toWord = Fields.toWord ⟨f.op &&& g.op, f.a &&& g.a, f.b &&& g.b, f.imm &&& g.imm⟩ := by
  refine BitVec.eq_of_getLsbD_eq fun i hi => ?_
  simp only [Fields.toWord, BitVec.getLsbD_and, BitVec.getLsbD_append]
  split_ifs <;> rfl

/-- A command word is determined by its fields. -/
theorem Fields.toWord_injective : Function.Injective Fields.toWord :=
  Function.LeftInverse.injective Fields.ofWord_toWord

/-- The fields that a format tests: those it does not use, and of format `G` the upper bits of `a` (R93). -/
def Format.maskFields : Format → Fields
  | .z => ⟨0xFF, 0xF, 0xF, 0xFFFF⟩
  | .reset => ⟨0xFF, 0, 0xF, 0xFFFF⟩
  | .s | .r => ⟨0xFF, 0, 0xF, 0⟩
  | .g => ⟨0xFF, 0xE, 0xF, 0⟩
  | .l | .c => ⟨0xFF, 0xF, 0xF, 0⟩

/-- The mask column of R94 follows from the format column. -/
theorem Row.mask_eq (row : Row) : row.mask = row.format.maskFields.toWord := by
  cases row <;> decide

/-- The bits of `a` that format `G` does not use are 0 in 0 and 1 alone. -/
theorem and_fourteen_iff (a : BitVec 4) : a &&& 14#4 = 0#4 ↔ a = 0#4 ∨ a = 1#4 := by
  revert a
  decide

/-- A word passes a row's mask and match exactly when its fields pass the row's opcode and format (R93, R94). -/
theorem Row.mask_match_iff (row : Row) (w : Word) :
    w &&& row.mask = row.pattern ↔ row.Accepts (Fields.ofWord w) := by
  generalize hf : Fields.ofWord w = f
  obtain rfl : w = f.toWord := by rw [← hf, Fields.toWord_ofWord]
  have hop : f.op &&& 255#8 = f.op := BitVec.and_allOnes
  have ha : f.a &&& 15#4 = f.a := BitVec.and_allOnes
  have hb : f.b &&& 15#4 = f.b := BitVec.and_allOnes
  have himm : f.imm &&& 65535#16 = f.imm := BitVec.and_allOnes
  rw [row.mask_eq, Fields.toWord_and, ← row.toWord_op, Fields.toWord_injective.eq_iff, Row.Accepts, eq_comm (a := row.op)]
  cases hformat : row.format <;>
    simp [Format.maskFields, Format.accepts, hop, ha, hb, himm, and_fourteen_iff, and_assoc]

/-- Settles O3: both readings of a row test the same bits. -/
theorem rowsAreTheOpcodeMap : Obligations.RowsAreTheOpcodeMap := by
  intro w
  refine ⟨fun row => ?_, rowOf_eq_unassigned_iff, ?_⟩
  · rw [rowOf_eq_ok_iff, row.mask_match_iff, Ne, Row.osr.mask_match_iff]
  · rw [rowOf_eq_unused_iff]
    simp only [Ne, Row.mask_match_iff]
    rfl

/-! An operation and its own words. -/

/-- The command word's fields of an operation are accepted by its row (R93). -/
theorem Instr.row_accepts_fields (i : Instr) : i.row.Accepts i.fields := by
  cases i with
  | qen g b => exact ⟨rfl, by cases g <;> rfl⟩
  | _ => exact ⟨rfl, rfl⟩

/-- The length of a payload that fits is read back from the length field (R92). -/
theorem length_ofNat {b : Block} (h : b.fitsLength) : (BitVec.ofNat 16 b.length).toNat = b.length :=
  (Laws.EncodedShape.fits_length h).symm

/-- The words of a well-formed operation select its row: an `OSS` has a payload, so `OSR` does not take its word. -/
theorem Instr.rowOf_fields {i : Instr} (h : i.WellFormed) : rowOf i.fields = .ok i.row := by
  refine rowOf_eq_ok_iff.mpr ⟨i.row_accepts_fields, fun hoss => ?_⟩
  cases i <;> simp only [Instr.row, reduceCtorEq] at hoss
  case oss a b =>
    obtain ⟨hne, hfits⟩ := h
    rintro ⟨-, haccepts⟩
    simp only [Row.format, Format.accepts, Instr.fields, Instr.fieldImm, Bool.and_eq_true, beq_iff_eq] at haccepts
    have hzero := congrArg BitVec.toNat haccepts.2
    rw [length_ofNat hfits] at hzero
    exact hne (List.length_eq_zero_iff.mp hzero)

/-- The rate group is read back from the field that holds it (R93). -/
@[simp] theorem groupOf_groupField (g : Family) : groupOf (groupField g) = g := by cases g <;> decide

/-- A payload that fits is read back from its own words. -/
theorem withPayload_words {b : Block} (h : b.fitsLength) (i : Block → Instr) (rest : List Word) :
    withPayload (BitVec.ofNat 16 b.length).toNat i (b.words ++ rest) = .ok (i b, rest) :=
  withPayload_eq_ok.mpr ⟨b, rfl, rfl, (length_ofNat h).symm⟩

/-- After its command word an operation is read back from its operand words and its payload. -/
theorem Instr.readCommand_words {i : Instr} (h : i.WellFormed) (rest : List Word) :
    readCommand i.row i.fields (i.operands ++ i.payload.words ++ rest) = .ok (i, rest) := by
  cases i with
  | oss a b => exact withPayload_words h.2 (.oss a) rest
  | osa rc b => exact withPayload_words h (.osa rc) rest
  | qen g b =>
    have hread := withPayload_words h (.qen g) rest
    rw [← groupOf_groupField g] at hread
    simpa [readCommand, Instr.row, Instr.fields, Instr.fieldA, Instr.fieldImm, Instr.operands, Instr.payload] using hread
  | pcy tick raw => exact withPayload_words h (.pcy tick) rest
  | _ => rfl

/-- Settles O1: the words of an operation select its row, and what follows them is read back. -/
theorem decodeEncodeAgree : Obligations.DecodeEncodeAgree := by
  intro i rest h
  simp only [encode, List.cons_append, decode, Fields.ofWord_toWord, Instr.rowOf_fields h]
  exact Instr.readCommand_words h rest

/-! A stream and the operation read from it. -/

/-- What is read of a stream after fields that select a row: an operation that is well formed, has those fields, and
whose operand words and payload stand in front of what is left. -/
def ReadBack (f : Fields) (ws : List Word) (i : Instr) (rest : List Word) : Prop :=
  i.WellFormed ∧ i.fields = f ∧ ws = i.operands ++ i.payload.words ++ rest

/-- A payload read by the length field is a block that fits it. -/
theorem withPayload_imm {imm : BitVec 16} {ws rest : List Word} {i : Instr} {make : Block → Instr}
    (h : withPayload imm.toNat make ws = .ok (i, rest)) :
    ∃ b : Block, i = make b ∧ ws = b.words ++ rest ∧ b.fitsLength ∧ imm = BitVec.ofNat 16 b.length := by
  obtain ⟨b, hi, hws, hlen⟩ := withPayload_eq_ok.mp h
  refine ⟨b, hi, hws, ?_, ?_⟩
  · rw [Block.fitsLength, hlen]
    exact imm.isLt
  · rw [hlen, BitVec.ofNat_toNat, BitVec.setWidth_eq]

/-- Two operand words are read exactly from the front of the stream. -/
theorem twoOperands_eq_ok {make : Word → Word → Instr} {ws rest : List Word} {i : Instr} :
    twoOperands make ws = .ok (i, rest) ↔ ∃ x y, i = make x y ∧ ws = x :: y :: rest := by
  constructor
  · intro h
    match ws, h with
    | x :: y :: ws, h => cases h; exact ⟨x, y, rfl, rfl⟩
  · rintro ⟨x, y, rfl, rfl⟩
    rfl

/-- One operand word is read exactly from the front of the stream. -/
theorem oneOperand_eq_ok {make : Word → Instr} {ws rest : List Word} {i : Instr} :
    oneOperand make ws = .ok (i, rest) ↔ ∃ x, i = make x ∧ ws = x :: rest := by
  constructor
  · intro h
    match ws, h with
    | x :: ws, h => cases h; exact ⟨x, rfl, rfl⟩
  · rintro ⟨x, rfl, rfl⟩
    rfl

/-- The group field of a command word that format `G` accepts is the field of its group (R93). -/
theorem groupField_groupOf {a : BitVec 4} (h : a = 0 ∨ a = 1) : groupField (groupOf a) = a := by
  obtain rfl | rfl := h <;> decide

/-- What is read after fields that select a row is the operation with those fields. -/
theorem readCommand_readBack {row : Row} {f : Fields} {ws rest : List Word} {i : Instr} (hrow : rowOf f = .ok row)
    (h : readCommand row f ws = .ok (i, rest)) : ReadBack f ws i rest := by
  obtain ⟨⟨hop, haccepts⟩, hfirst⟩ := rowOf_eq_ok_iff.mp hrow
  obtain ⟨op, a, b, imm⟩ := f
  obtain rfl : row.op = op := hop
  cases row <;>
    simp only [Row.format, Format.accepts, Bool.and_eq_true, Bool.or_eq_true, beq_iff_eq] at haccepts
  case fvo | fvd | dse =>
    obtain ⟨⟨rfl, rfl⟩, rfl⟩ := haccepts
    obtain ⟨x, y, rfl, rfl⟩ := twoOperands_eq_ok.mp h
    exact ⟨trivial, rfl, rfl⟩
  case fbu =>
    obtain ⟨⟨rfl, rfl⟩, rfl⟩ := haccepts
    obtain ⟨x, rfl, rfl⟩ := oneOperand_eq_ok.mp h
    exact ⟨trivial, rfl, rfl⟩
  case osr =>
    obtain ⟨rfl, rfl⟩ := haccepts
    cases h
    exact ⟨trivial, rfl, rfl⟩
  case rds =>
    obtain ⟨rfl, rfl⟩ := haccepts
    cases h
    exact ⟨trivial, rfl, rfl⟩
  case oss =>
    subst haccepts
    obtain ⟨payload, rfl, rfl, hfits, rfl⟩ := withPayload_imm h
    refine ⟨⟨fun hnil => ?_, hfits⟩, rfl, rfl⟩
    exact hfirst rfl ⟨rfl, by simp [Row.format, Format.accepts, hnil]⟩
  case osa =>
    subst haccepts
    obtain ⟨payload, rfl, rfl, hfits, rfl⟩ := withPayload_imm h
    exact ⟨hfits, rfl, rfl⟩
  case qen =>
    obtain ⟨hgroup, rfl⟩ := haccepts
    obtain ⟨payload, rfl, rfl, hfits, rfl⟩ := withPayload_imm h
    refine ⟨hfits, ?_, rfl⟩
    simp [Instr.fields, Instr.fieldA, Instr.fieldImm, Instr.row, groupField_groupOf hgroup]
  case pcy =>
    obtain ⟨rfl, rfl⟩ := haccepts
    match ws, h with
    | tick :: ws, h =>
      obtain ⟨payload, rfl, rfl, hfits, rfl⟩ := withPayload_imm h
      exact ⟨hfits, rfl, rfl⟩
  all_goals
    obtain ⟨⟨rfl, rfl⟩, rfl⟩ := haccepts
    cases h
    exact ⟨trivial, rfl, rfl⟩

/-- Settles O2: the first word's fields select the row of what is read, and determine the word. -/
theorem decodedCommandIsItsEncoding : Obligations.DecodedCommandIsItsEncoding := by
  intro ws rest i h
  match ws, h with
  | w :: ws, h =>
    simp only [decode] at h
    split at h
    case h_1 row hrow =>
      obtain ⟨hwf, hfields, hws⟩ := readCommand_readBack hrow h
      refine ⟨hwf, ?_⟩
      rw [encode, hfields, Fields.toWord_ofWord, hws, List.cons_append]
    case h_2 => cases h

/-- Settles O4, by evaluation. -/
theorem writtenWordsDecode : Obligations.WrittenWordsDecode :=
  ⟨rfl, rfl, rfl, rfl, rfl, rfl, rfl, rfl, rfl⟩

end Sys2Proof
end

section
/-! What the shared operations and every whole operation leave unchanged (spec/10_state.md section 9), and the statements
that follow at once: R91, R101, R104, R270 and the table of R50. -/

namespace Sys2Proof.Machine

/-! Pieces of state. -/

/-- A state agrees with itself. -/
theorem Item.same_refl (x : Item) (s : State) : x.same s s := by cases x <;> simp [Item.same]

/-- Agreement goes on. -/
theorem Item.same_trans {x : Item} {s u v : State} (h : x.same s u) (h' : x.same u v) : x.same s v := by
  cases x <;> simp only [Item.same] at h h' ⊢ <;> simp [h, h']

/-- Agreement on every piece of state does not look at ports and the schedule. -/
theorem Item.same_setPort {x : Item} {s u : State} (y : Port) (v : PortState) (h : x.same s u) :
    x.same s (u.setPort y v) := by
  cases x <;> simpa [Item.same] using h

/-! Footprints: what the body of an operation does before it answers. -/

/-- From `s` to `u` nothing outside `written` changes, `stream` joins the emitted stream and `draws` free values are
drawn; the configuration, the schedule and the ports stay. -/
structure Touches (written : List Item) (stream : List Emission) (draws : Nat) (s u : State) : Prop where
  rest : ∀ x, x ∉ written → x.same s u
  configuration : u.cfg = s.cfg
  issuer : u.issuer = s.issuer
  schedule : u.sched = s.sched
  ports : ∀ y, u.port y = s.port y
  emitted : u.emitted = s.emitted ++ stream
  draws : u.freeCount = s.freeCount + draws

/-- Nothing at all. -/
theorem Touches.refl (written : List Item) (s : State) : Touches written [] 0 s s :=
  ⟨fun x _ => x.same_refl s, rfl, rfl, rfl, fun _ => rfl, (List.append_nil _).symm, rfl⟩

/-- A footprint may be said more coarsely. -/
theorem Touches.mono {written written' : List Item} {stream : List Emission} {draws : Nat} {s u : State}
    (h : Touches written stream draws s u) (hsub : written ⊆ written') : Touches written' stream draws s u :=
  { h with rest := fun x hx => h.rest x fun hmem => hx (hsub hmem) }

/-- One operation after another. -/
theorem Touches.trans {written written' : List Item} {stream stream' : List Emission} {draws draws' : Nat}
    {s u v : State} (h : Touches written stream draws s u) (h' : Touches written' stream' draws' u v) :
    Touches (written ++ written') (stream ++ stream') (draws + draws') s v where
  rest x hx := by
    rw [List.mem_append, not_or] at hx
    exact Item.same_trans (h.rest x hx.1) (h'.rest x hx.2)
  configuration := h'.configuration.trans h.configuration
  issuer := h'.issuer.trans h.issuer
  schedule := h'.schedule.trans h.schedule
  ports y := (h'.ports y).trans (h.ports y)
  emitted := by rw [h'.emitted, h.emitted, List.append_assoc]
  draws := by rw [h'.draws, h.draws, Nat.add_assoc]

/-- The response ends the operation. -/
theorem Touches.respond {written : List Item} {stream : List Emission} {draws : Nat} {s u : State} {r : Reply}
    {response : List Word} (h : Touches written stream draws s u) (words : r.words = response) :
    Ends written response stream draws s (u.respond r) :=
  Ends.of_respond words h.rest h.configuration h.issuer h.schedule h.ports h.emitted h.draws

/-! The footprint of each shared operation. -/

/-- A write of the cascade touches the stages that it changes. -/
theorem Touches.of_os {written : List Item} (s : State) (os : PerStage FilterState)
    (hstage : ∀ st, Item.stage st ∉ written → os.get st = s.os.get st) :
    Touches written [] 0 s { s with os := os } := by
  refine ⟨fun x hx => ?_, rfl, rfl, rfl, fun _ => rfl, (List.append_nil _).symm, rfl⟩
  cases x
  case stage st => exact hstage st hx
  all_goals simp [Item.same]

/-- A write of the modulator, with the free values drawn for it. -/
theorem Touches.of_ds (s : State) (d : Modulator) (k : Nat) :
    Touches [.modulator] [] k s { s with ds := d, freeCount := s.freeCount + k } := by
  refine ⟨fun x hx => ?_, rfl, rfl, rfl, fun _ => rfl, (List.append_nil _).symm, rfl⟩
  cases x <;> simp [Item.same] at hx ⊢

/-- A write of the feedback registers touches those that it changes. -/
theorem Touches.of_fb {written : List Item} (s : State) (fb : Feedback)
    (hvalue : Item.feedbackValue ∉ written → fb.value = s.fb.value)
    (hticks : Item.feedbackTicks ∉ written → fb.lastTicks = s.fb.lastTicks ∧ fb.haveLast = s.fb.haveLast)
    (hbounds : Item.feedbackBounds ∉ written →
      fb.nominal = s.fb.nominal ∧ fb.min = s.fb.min ∧ fb.max = s.fb.max ∧ fb.target = s.fb.target ∧
      fb.configured = s.fb.configured) :
    Touches written [] 0 s { s with fb := fb } := by
  refine ⟨fun x hx => ?_, rfl, rfl, rfl, fun _ => rfl, (List.append_nil _).symm, rfl⟩
  cases x
  case feedbackValue => exact hvalue hx
  case feedbackTicks => exact hticks hx
  case feedbackBounds => exact hbounds hx
  all_goals simp [Item.same]

/-- A write of the queue touches what it changes of it. -/
theorem Touches.of_q {written : List Item} (s : State) (q : Queue)
    (hslots : Item.slots ∉ written → q.hdr = s.q.hdr ∧ q.data = s.q.data ∧ q.lock = s.q.lock)
    (hwc : Item.writeCursor ∉ written → q.wc = s.q.wc) (hrc : Item.readCursor ∉ written → q.rc = s.q.rc)
    (hocc : Item.occupancy ∉ written → q.occ = s.q.occ) (htotal : Item.total ∉ written → q.total = s.q.total) :
    Touches written [] 0 s { s with q := q } := by
  refine ⟨fun x hx => ?_, rfl, rfl, rfl, fun _ => rfl, (List.append_nil _).symm, rfl⟩
  cases x
  case slots => exact hslots hx
  case writeCursor => exact hwc hx
  case readCursor => exact hrc hx
  case occupancy => exact hocc hx
  case total => exact htotal hx
  all_goals simp [Item.same]

theorem observe_touches (cr : Option Rate) (cd : Option Depth) (s : State) :
    Touches [.fvPrev, .fmt, .fvUpdated] [] 0 s (observe cr cd s) := by
  rw [observe_eq]
  refine ⟨fun x hx => ?_, rfl, rfl, rfl, fun _ => rfl, (List.append_nil _).symm, rfl⟩
  cases x <;> simp [Item.same] at hx ⊢

theorem declareGood_touches (r : Rate) (d : Depth) (s : State) :
    Touches [.fvPrev, .fmt, .fvUpdated] [] 0 s (declareGood r d s) := by
  refine ⟨fun x hx => ?_, rfl, rfl, rfl, fun _ => rfl, (List.append_nil _).symm, rfl⟩
  cases x <;> simp [Item.same] at hx ⊢

theorem declareBad_touches (s : State) : Touches [.fvPrev, .fmt] [] 0 s (declareBad s) := by
  refine ⟨fun x hx => ?_, rfl, rfl, rfl, fun _ => rfl, (List.append_nil _).symm, rfl⟩
  cases x <;> simp [Item.same] at hx ⊢

theorem takeUpdated_touches (s : State) : Touches [.fvUpdated] [] 0 s (takeUpdated s) := by
  refine ⟨fun x hx => ?_, rfl, rfl, rfl, fun _ => rfl, (List.append_nil _).symm, rfl⟩
  cases x <;> simp [Item.same] at hx ⊢

theorem zeroStage_touches (st : Stage) (s : State) : Touches [.stage st] [] 0 s (zeroStage st s) :=
  Touches.of_os s _ fun _ hne => PerStage.get_set_other _ _ fun e => hne (by simp [e])

theorem zeroCascade_touches (s : State) : Touches [.stage .s0, .stage .s1, .stage .s2] [] 0 s (zeroCascade s) :=
  ((zeroStage_touches .s0 s).trans (zeroStage_touches .s1 _)).trans (zeroStage_touches .s2 _)

theorem runStage_touches (st : Stage) (b : Block) (s : State) : Touches [.stage st] [] 0 s (runStage st b s).1 :=
  Touches.of_os s _ fun _ hne => PerStage.get_set_other _ _ fun e => hne (by simp [e])

theorem runCascade_touches (r : Rate) (b : Block) (s : State) :
    Touches ((Stage.firstStages r.stages).map .stage) [] 0 s (runCascade r b s).1 :=
  Touches.of_os s _ fun _ hne => cascadeBlock_other _ _ _ fun hmem => hne (List.mem_map_of_mem hmem)

theorem writeData_touches (m : Memory) (s : State) : Touches [.slots] [] 0 s { s with q := { s.q with data := m } } :=
  Touches.of_q s _ (by simp) (fun _ => rfl) (fun _ => rfl) (fun _ => rfl) (fun _ => rfl)

theorem writeHeader_touches (g : Family) (n : Nat) (s : State) : Touches [.slots] [] 0 s (writeHeader g n s) :=
  Touches.of_q s _ (by simp) (fun _ => rfl) (fun _ => rfl) (fun _ => rfl) (fun _ => rfl)

theorem commitEnqueue_touches (n : Nat) (s : State) :
    Touches [.writeCursor, .occupancy, .total] [] 0 s (commitEnqueue n s) :=
  Touches.of_q s _ (fun _ => ⟨rfl, rfl, rfl⟩) (by simp) (fun _ => rfl) (by simp) (by simp)

theorem commitDequeue_touches (n : Nat) (s : State) :
    Touches [.readCursor, .occupancy, .total] [] 0 s (commitDequeue n s) :=
  Touches.of_q s _ (fun _ => ⟨rfl, rfl, rfl⟩) (fun _ => rfl) (by simp) (by simp) (by simp)

theorem setFamily_touches (g : Family) (s : State) : Touches [.family] [] 0 s (setFamily g s) := by
  refine ⟨fun x hx => ?_, rfl, rfl, rfl, fun _ => rfl, (List.append_nil _).symm, rfl⟩
  cases x <;> simp [Item.same] at hx ⊢

theorem resetQueue_touches (s : State) :
    Touches [.writeCursor, .readCursor, .occupancy, .total, .slots] [] 0 s (resetQueue s) :=
  Touches.of_q s _ (by simp) (by simp) (by simp) (by simp) (by simp)

theorem zeroModulator_touches (s : State) : Touches [.modulator] [] 0 s (zeroModulator s) :=
  Touches.of_ds s _ 0

theorem storeChannels_touches (left right : Channel) (s : State) :
    Touches [.modulator] [] 0 s (storeChannels left right s) :=
  Touches.of_ds s _ 0

theorem loseModulator_touches (s : State) : Touches [.modulator] [] 1 s (loseModulator s) :=
  Touches.of_ds s _ 1

theorem encodePair_touches (p : Pair) (s : State) : ∃ k, Touches [.modulator] [] k s (encodePair p s).2 := by
  obtain ⟨d, k, h⟩ := encodePair_frame p s
  exact ⟨k, h ▸ Touches.of_ds s d k⟩

theorem encodeBlock_touches (b : Block) (s : State) : ∃ k, Touches [.modulator] [] k s (encodeBlock b s).2 := by
  obtain ⟨d, k, h⟩ := encodeBlock_frame b s
  exact ⟨k, h ▸ Touches.of_ds s d k⟩

theorem seedFeedback_touches (r : Rate) (d : Depth) (s : State) :
    Touches [.feedbackValue, .feedbackTicks, .feedbackBounds] [] 0 s (seedFeedback r d s) :=
  Touches.of_fb s _ (by simp) (by simp) (by simp)

theorem configureFeedback_touches (s : State) :
    Touches [.feedbackValue, .feedbackTicks, .feedbackBounds] [] 0 s (configureFeedback s).2 := by
  obtain ⟨-, h⟩ | ⟨r, d, -, h⟩ := configureFeedback_cases s <;> rw [h]
  · exact Touches.refl _ s
  · exact seedFeedback_touches r d s

theorem updateFeedback_touches (tick : Word) (total : Nat) (s : State) :
    Touches [.feedbackValue, .feedbackTicks] [] 0 s (updateFeedback tick total s).2 := by
  obtain ⟨-, h⟩ | ⟨_, _, -, -, -, h⟩ | ⟨_, _, -, -, -, h⟩ := updateFeedback_cases tick total s <;> rw [h]
  · exact Touches.refl _ s
  · exact Touches.of_fb s _ (fun _ => rfl) (by simp) (fun _ => ⟨rfl, rfl, rfl, rfl, rfl⟩)
  · exact Touches.of_fb s _ (by simp) (by simp) (fun _ => ⟨rfl, rfl, rfl, rfl, rfl⟩)

theorem askModulatorReset_touches (s : State) : Touches [.resetRequest] [] 0 s (askModulatorReset s) := by
  refine ⟨fun x hx => ?_, rfl, rfl, rfl, fun _ => rfl, (List.append_nil _).symm, rfl⟩
  cases x <;> simp [Item.same] at hx ⊢

theorem takeResetRequest_touches (s : State) : Touches [.resetRequest] [] 0 s (takeResetRequest s) := by
  refine ⟨fun x hx => ?_, rfl, rfl, rfl, fun _ => rfl, (List.append_nil _).symm, rfl⟩
  cases x <;> simp [Item.same] at hx ⊢

theorem enterMute_touches (s : State) :
    Touches [.mute, .readCursor, .occupancy, .total] [] 0 s (enterMute s) := by
  refine ⟨fun x hx => ?_, rfl, rfl, rfl, fun _ => rfl, (List.append_nil _).symm, rfl⟩
  cases x <;> simp [Item.same] at hx ⊢

theorem leaveMute_touches (s : State) : Touches [.mute] [] 0 s (leaveMute s) := by
  refine ⟨fun x hx => ?_, rfl, rfl, rfl, fun _ => rfl, (List.append_nil _).symm, rfl⟩
  cases x <;> simp [Item.same] at hx ⊢

theorem emit_touches (ws : List (Word × Word)) (s : State) :
    Touches [] (ws.map fun w => ⟨w.1, w.2, s.family⟩) 0 s (emit ws s) := by
  refine ⟨fun x hx => ?_, rfl, rfl, rfl, fun _ => rfl, rfl, rfl⟩
  cases x <;> simp [Item.same] at hx ⊢

/-- The stages that an active rate uses are stages of the cascade. -/
theorem firstStages_items_subset (r : Rate) :
    (Stage.firstStages r.stages).map Item.stage ⊆ [.stage .s0, .stage .s1, .stage .s2] := by
  cases r <;> decide

/-! The footprint of the bodies that are made of several of them. -/

/-- An enqueue writes slots, the write cursor and the counters. -/
theorem enqueue_touches {g : Family} {b : Block} {s u : State} {st : Status} (h : enqueue g b s = .ok (st, u)) :
    Touches [.slots, .writeCursor, .occupancy, .total] [] 0 s u := by
  obtain ⟨-, he⟩ | ⟨-, -, -, he⟩ | ⟨-, -, -, e, -, he⟩ | ⟨-, -, -, m, -, he⟩ := enqueue_cases g b s <;>
    rw [he] at h <;> cases h
  · exact Touches.refl _ s
  · exact Touches.refl _ s
  · exact (((writeData_touches m s).trans (writeHeader_touches g b.length _)).trans
      (commitEnqueue_touches b.length _)).mono (by simp)

/-- A dequeue writes the read cursor, the counters and the family line. -/
theorem dequeue_touches {s u : State} {o : Option (Family × Block)} (h : dequeue s = .ok (o, u)) :
    Touches [.readCursor, .occupancy, .total, .family] [] 0 s u := by
  obtain ⟨-, he⟩ | ⟨-, e, -, he⟩ | ⟨-, b, -, he⟩ := dequeue_cases s <;> rw [he] at h <;> cases h
  · exact Touches.refl _ s
  · exact (commitDequeue_touches _ s).trans (setFamily_touches _ _)

/-- Line 8 of `PCY` is an enqueue or nothing. -/
theorem enqueueCycle_touches {rate : Rate} {y : Block} {s u : State} {st : Status}
    (h : enqueueCycle rate y s = .ok (st, u)) : Touches [.slots, .writeCursor, .occupancy, .total] [] 0 s u := by
  unfold enqueueCycle at h
  split at h
  · cases h
    exact Touches.refl _ s
  · exact enqueue_touches h

/-- Line 1 of `PCY`. -/
theorem takeSignal_touches (s : State) :
    Touches [.fvUpdated, .stage .s0, .stage .s1, .stage .s2, .resetRequest, .feedbackValue, .feedbackTicks,
      .feedbackBounds] [] 0 s (takeSignal s) := by
  obtain ⟨-, h⟩ | ⟨-, -, h⟩ | ⟨r, d, -, -, h⟩ := takeSignal_cases s <;> rw [h]
  · exact (takeUpdated_touches s).mono (by simp)
  · exact (((takeUpdated_touches s).trans (zeroCascade_touches _)).trans (askModulatorReset_touches _)).mono (by simp)
  · exact ((((takeUpdated_touches s).trans (zeroCascade_touches _)).trans (askModulatorReset_touches _)).trans
      (seedFeedback_touches r d _)).mono (by simp)

/-- Line 1 of `CCY`. -/
theorem honourResetRequest_touches (s : State) :
    Touches [.resetRequest, .modulator] [] 0 s (honourResetRequest s) := by
  unfold honourResetRequest
  split
  · exact (takeResetRequest_touches s).trans (zeroModulator_touches _)
  · exact (takeResetRequest_touches s).mono (by simp)

/-! How a whole operation ends. -/

/-- The operation leaves all outside its row of the table and answers once, with the shape of its row; only `CCY`
sends words to the output stage (R50, R91, R101). -/
def Completes (i : Instr) (s t : State) : Prop :=
  ∃ st outLen words stream draws, Ends (mayWrite i) (statusWord st outLen :: words) stream draws s t ∧
    words.length = resultWords i.row + 2 * outLen ∧ (i.row ≠ .ccy → stream = [])

/-- A result is a fault, or a state in which the operation completes. -/
def FaultsOrCompletes (i : Instr) (s : State) (r : Result) : Prop :=
  (∃ e, r = .fault e) ∨ ∃ t, r = .next t ∧ Completes i s t

/-- A body that answers without an output block. -/
theorem FaultsOrCompletes.of_plain {i : Instr} {s u : State} {written : List Item} {draws : Nat} {st : Status}
    {results : List Word} (h : Touches written [] draws s u) (hsub : written ⊆ mayWrite i)
    (hlen : results.length = resultWords i.row) :
    FaultsOrCompletes i s (.next (u.respond (Reply.plain st results))) :=
  .inr ⟨_, rfl, st, 0, results, [], draws, (h.mono hsub).respond (Reply.words_plain st results), by simpa using hlen,
    fun _ => rfl⟩

/-- A body that answers `OK` with a block. -/
theorem FaultsOrCompletes.of_block {i : Instr} {s u : State} {written : List Item} {draws : Nat} {results : List Word}
    {b : Block} (h : Touches written [] draws s u) (hsub : written ⊆ mayWrite i)
    (hlen : results.length = resultWords i.row) :
    FaultsOrCompletes i s (.next (u.respond (Reply.withBlock results b))) :=
  .inr ⟨_, rfl, .ok, b.length, results ++ b.words, [], draws, (h.mono hsub).respond (Reply.words_withBlock results b),
    by simp [hlen], fun _ => rfl⟩

/-- The checks before an operation answer as the operation may. -/
theorem FaultsOrCompletes.gate {i : Instr} {s : State} {body : State → Result}
    (h : FaultsOrCompletes i s (body s)) : FaultsOrCompletes i s (s.gate i.row body) := by
  obtain ⟨-, -, hbody⟩ | ⟨-, hrefused⟩ | ⟨-, -, hrefused⟩ := State.gate_cases (row := i.row) (body := body) rfl
  · rwa [← hbody]
  · rw [hrefused]
    exact .of_plain (Touches.refl [] s) (List.nil_subset _) (by simp [illegalResults])
  · rw [hrefused]
    exact .of_plain (Touches.refl [] s) (List.nil_subset _) (refusedResults_length i.row s)

/-- The words of output word pairs: two for each pair. -/
@[simp] theorem pairWords_length (ws : List (Word × Word)) : (pairWords ws).length = 2 * ws.length := by
  induction ws with
  | nil => rfl
  | cons w ws ih => simp [pairWords, ih]; omega

/-- The pieces of state that a `CCY` may write, and the end of one that has written some of them. -/
theorem finishEncoding_ends {written : List Item} {draws : Nat} {s u : State} (h : Touches written [] draws s u)
    (st : Status) (ws : List (Word × Word)) :
    Ends written (statusWord st ws.length :: pairWords ws) (ws.map fun w => ⟨w.1, w.2, u.family⟩) draws s
      (finishEncoding st ws u) :=
  ((h.trans (emit_touches ws u)).mono (by simp)).respond (Reply.words_withWords st ws)

/-- The end of a `CCY` that an overflow cut off. -/
theorem finishOverflow_ends {written : List Item} {draws : Nat} {s u : State} (h : Touches written [] draws s u) :
    ∃ stream, Ends written [statusWord .dsOverflow 0] stream (draws + 1) s (finishOverflow u) := by
  have hdraw : Touches [] [] 1 u { u with freeCount := u.freeCount + 1 } := by
    refine ⟨fun x hx => ?_, rfl, rfl, rfl, fun _ => rfl, (List.append_nil _).symm, rfl⟩
    cases x <;> simp [Item.same]
  exact ⟨_, (((h.trans hdraw).trans (emit_touches _ _)).mono (by simp)).respond (Reply.words_plain .dsOverflow [])⟩

/-- The encoding of a consumer cycle that has written some of its row. -/
theorem encodeAndFinish_completes {written : List Item} {draws : Nat} {s u : State} (h : Touches written [] draws s u)
    (hsub : written ⊆ mayWrite .ccy) (st : Status) (b : Block) :
    FaultsOrCompletes .ccy s (encodeAndFinish st b u) := by
  obtain ⟨k, hk⟩ := encodeBlock_touches b u
  have hboth := (h.trans hk).mono (written' := mayWrite .ccy) (List.append_subset.mpr ⟨hsub, by simp [mayWrite]⟩)
  unfold encodeAndFinish
  split
  case h_1 ws v hv =>
    rw [hv] at hboth
    exact .inr ⟨_, rfl, st, ws.length, pairWords ws, _, _, finishEncoding_ends hboth st ws,
      by simp [Instr.row, resultWords], fun hne => absurd rfl hne⟩
  case h_2 v hv =>
    rw [hv] at hboth
    obtain ⟨stream, hends⟩ := finishOverflow_ends hboth
    exact .inr ⟨_, rfl, .dsOverflow, 0, [], stream, _, hends, rfl, fun hne => absurd rfl hne⟩

/-- Lines 4 and 5 of `CCY`. -/
theorem playFrame_completes {written : List Item} {draws : Nat} {s u : State} (h : Touches written [] draws s u)
    (hsub : written ⊆ mayWrite .ccy) : FaultsOrCompletes .ccy s (playFrame u) := by
  unfold playFrame
  split
  case h_1 e he => exact .inl ⟨e, rfl⟩
  case h_2 g b v hv =>
    exact encodeAndFinish_completes (h.trans (dequeue_touches hv))
      (List.append_subset.mpr ⟨hsub, by simp [mayWrite]⟩) .ok b
  case h_3 v hv =>
    exact .of_plain (h.trans (dequeue_touches hv)) (List.append_subset.mpr ⟨hsub, by simp [mayWrite]⟩) rfl

/-- A consumer cycle. -/
theorem execCcy_completes (s : State) : FaultsOrCompletes .ccy s (execCcy s) := by
  refine FaultsOrCompletes.gate (i := .ccy) ?_
  have hrequest := honourResetRequest_touches s
  unfold muteAndPlay
  split_ifs
  · exact encodeAndFinish_completes ((hrequest.trans (enterMute_touches _)).trans (zeroModulator_touches _))
      (by simp [mayWrite]) _ _
  · exact playFrame_completes hrequest (by simp [mayWrite])
  · exact playFrame_completes (hrequest.trans (leaveMute_touches _)) (by simp [mayWrite])
  · exact encodeAndFinish_completes hrequest (by simp [mayWrite]) _ _

/-- A producer cycle. -/
theorem execPcy_completes (tick : Word) (raw : Block) (s : State) :
    FaultsOrCompletes (.pcy tick raw) s (execPcy tick raw s) := by
  refine FaultsOrCompletes.gate (i := .pcy tick raw) ?_
  have hsignal := takeSignal_touches s
  unfold cycleBody
  split
  · exact .of_plain hsignal (by simp [mayWrite]) rfl
  · split
    · exact .of_plain hsignal (by simp [mayWrite]) rfl
    · rename_i rate depth _ _
      unfold processBlock
      dsimp only
      split
      case h_1 e he => exact .inl ⟨e, rfl⟩
      case h_2 st u hu =>
        have hrun := (runCascade_touches rate (rawBlock (takeSignal s).cfg depth raw) (takeSignal s)).mono
          (firstStages_items_subset rate)
        exact .of_plain (((hsignal.trans hrun).trans (updateFeedback_touches tick _ _)).trans
          (enqueueCycle_touches hu)) (by simp [mayWrite]) rfl

/-- Every whole operation faults or completes; none is refused. -/
theorem exec_completes (i : Instr) (s : State) : FaultsOrCompletes i s (exec i s) := by
  cases i with
  | pcy tick raw => exact execPcy_completes tick raw s
  | ccy => exact execCcy_completes s
  | fvo ww bw =>
    change FaultsOrCompletes _ s (execFvo ww bw s)
    refine FaultsOrCompletes.gate (i := .fvo ww bw) ?_
    exact .of_plain (observe_touches _ _ s) (by simp [mayWrite]) rfl
  | fvd rateHz depthBits =>
    change FaultsOrCompletes _ s (execFvd rateHz depthBits s)
    refine FaultsOrCompletes.gate (i := .fvd rateHz depthBits) ?_
    split
    · exact .of_plain (declareGood_touches _ _ s) (by simp [mayWrite]) rfl
    · exact .of_plain (declareBad_touches s) (by simp [mayWrite]) rfl
  | fvt =>
    change FaultsOrCompletes _ s (execFvt s)
    refine FaultsOrCompletes.gate (i := .fvt) ?_
    exact .of_plain (takeUpdated_touches s) (by simp [mayWrite]) rfl
  | osr a =>
    change FaultsOrCompletes _ s (execOsr a s)
    refine FaultsOrCompletes.gate (i := .osr a) ?_
    split
    case h_1 => exact .of_plain (Touches.refl [] s) (List.nil_subset _) rfl
    case h_2 st hst => exact .of_plain (zeroStage_touches st s) (by simp [mayWrite, stageItems, hst]) rfl
  | oss a b =>
    change FaultsOrCompletes _ s (execOss a b s)
    refine FaultsOrCompletes.gate (i := .oss a b) ?_
    split
    case h_1 => exact .of_plain (Touches.refl [] s) (List.nil_subset _) rfl
    case h_2 st hst =>
      split
      · exact .of_plain (Touches.refl [] s) (List.nil_subset _) rfl
      · exact .of_block (runStage_touches st b s) (by simp [mayWrite, stageItems, hst]) rfl
  | osa rc b =>
    change FaultsOrCompletes _ s (execOsa rc b s)
    refine FaultsOrCompletes.gate (i := .osa rc b) ?_
    split
    case h_1 => exact .of_plain (Touches.refl [] s) (List.nil_subset _) rfl
    case h_2 rate hrate =>
      split
      · exact .of_plain (Touches.refl [] s) (List.nil_subset _) rfl
      · exact .of_block (runCascade_touches rate b s) (by simp [mayWrite, hrate]) rfl
  | osz =>
    change FaultsOrCompletes _ s (execOsz s)
    refine FaultsOrCompletes.gate (i := .osz) ?_
    exact .of_plain (zeroCascade_touches s) (by simp [mayWrite]) rfl
  | qen g b =>
    change FaultsOrCompletes _ s (execQen g b s)
    refine FaultsOrCompletes.gate (i := .qen g b) ?_
    split
    case h_1 e he => exact .inl ⟨e, rfl⟩
    case h_2 st u hu => exact .of_plain (enqueue_touches hu) (by simp [mayWrite]) rfl
  | qde =>
    change FaultsOrCompletes _ s (execQde s)
    refine FaultsOrCompletes.gate (i := .qde) ?_
    split
    case h_1 e he => exact .inl ⟨e, rfl⟩
    case h_2 u hu => exact .of_plain (dequeue_touches hu) (by simp [mayWrite]) rfl
    case h_3 g b u hu => exact .of_block (dequeue_touches hu) (by simp [mayWrite]) rfl
  | qrs =>
    change FaultsOrCompletes _ s (execQrs s)
    refine FaultsOrCompletes.gate (i := .qrs) ?_
    split
    · exact .of_plain (resetQueue_touches s) (by simp [mayWrite]) rfl
    · exact .inl ⟨_, rfl⟩
  | dse left right =>
    change FaultsOrCompletes _ s (execDse left right s)
    refine FaultsOrCompletes.gate (i := .dse left right) ?_
    obtain ⟨k, hk⟩ := encodePair_touches ⟨left, right⟩ s
    split
    case h_1 u hu => exact .of_plain (hu ▸ hk) (by simp [mayWrite]) rfl
    case h_2 u hu => exact .of_plain (hu ▸ hk) (by simp [mayWrite]) rfl
  | dsz =>
    change FaultsOrCompletes _ s (execDsz s)
    refine FaultsOrCompletes.gate (i := .dsz) ?_
    exact .of_plain (zeroModulator_touches s) (by simp [mayWrite]) rfl
  | fbc =>
    change FaultsOrCompletes _ s (execFbc s)
    refine FaultsOrCompletes.gate (i := .fbc) ?_
    exact .of_plain (configureFeedback_touches s) (by simp [mayWrite]) rfl
  | fbu tick =>
    change FaultsOrCompletes _ s (execFbu tick s)
    refine FaultsOrCompletes.gate (i := .fbu tick) ?_
    exact .of_plain (updateFeedback_touches tick _ s) (by simp [mayWrite]) rfl
  | init =>
    change FaultsOrCompletes _ s (execInit s)
    refine FaultsOrCompletes.gate (i := .init) ?_
    split
    · refine .of_plain (written := [.life]) (draws := 0) ⟨fun x hx => ?_, rfl, rfl, rfl, fun _ => rfl,
        (List.append_nil _).symm, rfl⟩ (by simp [mayWrite]) rfl
      cases x <;> simp [Item.same] at hx ⊢
    · exact .of_plain (Touches.refl [] s) (List.nil_subset _) rfl
  | rds n =>
    change FaultsOrCompletes _ s (execRds n s)
    refine FaultsOrCompletes.gate (i := .rds n) ?_
    split
    · exact .of_plain (Touches.refl [] s) (List.nil_subset _) rfl
    · exact .of_plain (Touches.refl [] s) (List.nil_subset _) rfl
  | qoc =>
    change FaultsOrCompletes _ s (execQoc s)
    refine FaultsOrCompletes.gate (i := .qoc) ?_
    exact .of_plain (Touches.refl [] s) (List.nil_subset _) rfl
  | qts =>
    change FaultsOrCompletes _ s (execQts s)
    refine FaultsOrCompletes.gate (i := .qts) ?_
    exact .of_plain (Touches.refl [] s) (List.nil_subset _) rfl
  | fbr =>
    change FaultsOrCompletes _ s (execFbr s)
    refine FaultsOrCompletes.gate (i := .fbr) ?_
    exact .of_plain (Touches.refl [] s) (List.nil_subset _) rfl

/-- A whole operation that answers a next state completes. -/
theorem completes_of_exec {i : Instr} {s t : State} (h : exec i s = .next t) : Completes i s t := by
  obtain ⟨e, he⟩ | ⟨u, hu, hcompletes⟩ := exec_completes i s
  · simp [he] at h
  · rw [hu] at h
    cases h
    exact hcompletes

/-- Settles O13: the response of a completed operation is the one that joins its port's output. -/
theorem everyOperationAnswersOnce : Obligations.EveryOperationAnswersOnce := by
  intro i s t h
  obtain ⟨st, outLen, words, stream, draws, hends, hlen, -⟩ := completes_of_exec h
  exact ⟨st, outLen, words, hends.output, hlen⟩

/-- Settles O11: the table port by port, and the check that comes before the operation's body. -/
theorem wrongPortIsRefused : Obligations.WrongPortIsRefused := by
  refine ⟨fun row => ?_, fun row => ?_, fun row => ?_, fun i s hport => exec_wrongPort hport⟩
  all_goals cases row <;> decide

/-! What is written of the slots. -/

/-- Of the slots only the one at the write cursor changes: its header, and the cells of the pairs that join the
total. -/
def WritesOneSlot (cfg : Config) (q q' : Queue) : Prop :=
  q'.hdr.length = q.hdr.length ∧ (∀ k, k ≠ q.wc → q'.header k = q.header k) ∧
  (∀ a, (∀ j, j < q'.total - q.total → a ≠ slotCell cfg q.wc j) → q'.data.read a = q.data.read a) ∧
  q'.lock = q.lock

/-- Nothing is written. -/
theorem WritesOneSlot.refl (cfg : Config) (q : Queue) : WritesOneSlot cfg q q :=
  ⟨rfl, fun _ _ => rfl, fun _ _ => rfl, rfl⟩

/-- An enqueue writes one slot at most. -/
theorem enqueue_writesOneSlot {g : Family} {b : Block} {s u : State} {st : Status} (h : enqueue g b s = .ok (st, u)) :
    WritesOneSlot s.cfg s.q u.q := by
  obtain ⟨-, he⟩ | ⟨-, -, -, he⟩ | ⟨-, -, -, e, -, he⟩ | ⟨-, -, -, m, hm, he⟩ := enqueue_cases g b s <;>
    rw [he] at h <;> cases h
  · exact .refl _ _
  · exact .refl _ _
  · obtain ⟨-, hother⟩ := slotWriteBlock_read b hm
    refine ⟨by simp, fun k hk => ?_, fun a ha => ?_, by simp⟩
    · exact Queue.header_set_other s.q ⟨b.length, g⟩ hk
    · refine hother a fun j hj => ?_
      rw [Nat.zero_add]
      exact ha j (by simpa using hj)

/-- Line 8 of `PCY` writes one slot at most. -/
theorem enqueueCycle_writesOneSlot {rate : Rate} {y : Block} {s u : State} {st : Status}
    (h : enqueueCycle rate y s = .ok (st, u)) : WritesOneSlot s.cfg s.q u.q := by
  unfold enqueueCycle at h
  split at h
  · cases h
    exact .refl _ _
  · exact enqueue_writesOneSlot h

/-! What line 1 of `PCY` and the feedback update leave. -/

@[simp] theorem takeSignal_cfg (s : State) : (takeSignal s).cfg = s.cfg := (takeSignal_touches s).configuration

@[simp] theorem takeSignal_issuer (s : State) : (takeSignal s).issuer = s.issuer := (takeSignal_touches s).issuer

@[simp] theorem takeSignal_q (s : State) : (takeSignal s).q = s.q := by
  obtain ⟨-, h⟩ | ⟨-, -, h⟩ | ⟨r, d, -, -, h⟩ := takeSignal_cases s <;> rw [h] <;> rfl

@[simp] theorem takeSignal_fmt (s : State) : (takeSignal s).fmt = s.fmt := (takeSignal_touches s).rest .fmt (by simp)

@[simp] theorem activeFormat_takeSignal (s : State) : activeFormat (takeSignal s) = activeFormat s := by
  simp [activeFormat]

@[simp] theorem updateFeedback_cfg (tick : Word) (total : Nat) (s : State) :
    (updateFeedback tick total s).2.cfg = s.cfg := (updateFeedback_touches tick total s).configuration

@[simp] theorem updateFeedback_q (tick : Word) (total : Nat) (s : State) :
    (updateFeedback tick total s).2.q = s.q := by
  obtain ⟨f, h⟩ := updateFeedback_frame tick total s
  rw [h]

/-- The state of a producer cycle before its enqueue: the signal taken, the block oversampled, the feedback updated. -/
def beforeEnqueue (tick : Word) (rate : Rate) (x : Block) (s : State) : State :=
  (updateFeedback tick s.q.total (runCascade rate x (takeSignal s)).1).2

/-- The block that a producer cycle enqueues. -/
def cycleFrame (rate : Rate) (x : Block) (s : State) : Block :=
  backpressure s.cfg s.q.occ (runCascade rate x (takeSignal s)).2

@[simp] theorem beforeEnqueue_cfg (tick : Word) (rate : Rate) (x : Block) (s : State) :
    (beforeEnqueue tick rate x s).cfg = s.cfg := by simp [beforeEnqueue]

@[simp] theorem beforeEnqueue_q (tick : Word) (rate : Rate) (x : Block) (s : State) :
    (beforeEnqueue tick rate x s).q = s.q := by simp [beforeEnqueue]

/-- The status that line 7 of a producer cycle ends with. -/
def updateStatus (tick : Word) (rate : Rate) (x : Block) (s : State) : Status :=
  (updateFeedback tick s.q.total (runCascade rate x (takeSignal s)).1).1

/-- Line 9 of `PCY`, by what its enqueue answers (R224, R226). -/
def answerCycle (feedback : Status) : Except Fault (Status × State) → Result
  | .error e => .fault e
  | .ok (st, u) => u.raise (cycleStatus feedback st) []

/-- Lines 5 to 9 of `PCY`. -/
theorem processBlock_eq (tick : Word) (rate : Rate) (x : Block) (s : State) :
    processBlock tick rate x s =
      answerCycle (updateFeedback tick (oversampleForQueue rate x s.q.occ s).1.q.total
        (oversampleForQueue rate x s.q.occ s).1).1
        (enqueueCycle rate (oversampleForQueue rate x s.q.occ s).2
          (updateFeedback tick (oversampleForQueue rate x s.q.occ s).1.q.total
            (oversampleForQueue rate x s.q.occ s).1).2) := rfl

/-- Lines 5 to 9 of `PCY`, after line 1. -/
theorem processBlock_takeSignal (tick : Word) (rate : Rate) (x : Block) (s : State) :
    processBlock tick rate x (takeSignal s) =
      answerCycle (updateStatus tick rate x s)
        (enqueueCycle rate (cycleFrame rate x s) (beforeEnqueue tick rate x s)) := by
  simp only [processBlock_eq, oversampleForQueue, cycleFrame, beforeEnqueue, updateStatus, runCascade_q, takeSignal_q,
    takeSignal_cfg]

/-- A producer cycle that came to its enqueue and answered a next state. -/
theorem answerCycle_next {feedback : Status} {r : Except Fault (Status × State)} {t : State}
    (h : answerCycle feedback r = .next t) :
    ∃ st u, r = .ok (st, u) ∧ t = u.respond (Reply.plain (cycleStatus feedback st) []) := by
  cases r with
  | error e => cases h
  | ok su =>
    obtain ⟨st, u⟩ := su
    cases h
    exact ⟨st, u, rfl, rfl⟩

/-- Everything a producer cycle can do: be refused, end early after line 1, or come to its enqueue. -/
theorem execPcy_cases (tick : Word) (raw : Block) (s : State) :
    (∃ r : Reply, exec (.pcy tick raw) s = .next (s.respond r)) ∨
    (Ready .p s ∧ ∃ r : Reply, exec (.pcy tick raw) s = .next ((takeSignal s).respond r)) ∨
    (Ready .p s ∧ ∃ rate depth, activeFormat s = some (rate, depth) ∧ raw.length * 2 ^ rate.stages ≤ s.cfg.frameMax ∧
      exec (.pcy tick raw) s = processBlock tick rate (rawBlock s.cfg depth raw) (takeSignal s)) := by
  obtain ⟨hport, hlife, hbody⟩ | ⟨-, hrefused⟩ | ⟨-, -, hrefused⟩ :=
    State.gate_cases (s := s) (row := .pcy) (body := fun s => cycleBody tick raw (takeSignal s)) rfl
  · have hready : Ready .p s := by simpa [ports, runsUnready] using And.intro hport hlife
    have hexec : exec (.pcy tick raw) s = cycleBody tick raw (takeSignal s) := hbody.symm
    rw [hexec]
    unfold cycleBody
    rw [activeFormat_takeSignal, takeSignal_cfg]
    split
    case h_1 => exact .inr (.inl ⟨hready, _, rfl⟩)
    case h_2 rate depth hformat =>
      split
      case isTrue => exact .inr (.inl ⟨hready, _, rfl⟩)
      case isFalse hfits => exact .inr (.inr ⟨hready, rate, depth, hformat, Nat.not_lt.mp hfits, rfl⟩)
  · exact .inl ⟨_, hrefused⟩
  · exact .inl ⟨_, hrefused⟩

/-- A producer cycle writes one slot at most. -/
theorem execPcy_writesOneSlot {tick : Word} {raw : Block} {s t : State} (h : exec (.pcy tick raw) s = .next t) :
    WritesOneSlot s.cfg s.q t.q := by
  obtain ⟨r, he⟩ | ⟨-, r, he⟩ | ⟨-, rate, depth, -, -, he⟩ := execPcy_cases tick raw s <;> rw [he] at h
  · cases h
    simpa using WritesOneSlot.refl s.cfg s.q
  · cases h
    simpa using WritesOneSlot.refl s.cfg s.q
  · rw [processBlock_takeSignal] at h
    obtain ⟨st, u, hu, rfl⟩ := answerCycle_next h
    simpa using enqueueCycle_writesOneSlot hu

/-- A gated operation that answers a next state has run its body, or has answered a refusal and changed nothing. -/
theorem State.gate_next {s t : State} {row : Row} {body : State → Result} (h : s.gate row body = .next t) :
    (s.issuer ∈ ports row ∧ (s.life = .ready ∨ runsUnready row = true) ∧ body s = .next t) ∨
    ∃ r : Reply, t = s.respond r := by
  obtain hbody | ⟨-, hrefused⟩ | ⟨-, -, hrefused⟩ := State.gate_cases h
  · exact .inl hbody
  · exact .inr ⟨_, Host.Outcome.next.inj hrefused⟩
  · exact .inr ⟨_, Host.Outcome.next.inj hrefused⟩

/-- A `QEN` writes one slot at most. -/
theorem execQen_writesOneSlot {g : Family} {b : Block} {s t : State} (h : exec (.qen g b) s = .next t) :
    WritesOneSlot s.cfg s.q t.q := by
  rw [exec, execQen] at h
  obtain ⟨-, -, hbody⟩ | ⟨r, rfl⟩ := State.gate_next h
  · split at hbody
    case h_1 => cases hbody
    case h_2 st u hu =>
      cases hbody
      simpa using enqueue_writesOneSlot hu
  · simpa using WritesOneSlot.refl s.cfg s.q

/-- A `QRS` writes no slot data. -/
theorem execQrs_slots {s t : State} (h : exec .qrs s = .next t) :
    t.q.hdr.length = s.q.hdr.length ∧ t.q.data = s.q.data ∧ t.q.lock = s.q.lock := by
  rw [exec, execQrs] at h
  obtain ⟨-, -, hbody⟩ | ⟨r, rfl⟩ := State.gate_next h
  · split at hbody
    case h_1 =>
      cases hbody
      simp
    case h_2 => cases hbody
  · simp

/-- Settles O58: each operation completes inside its row; of the slots a block's own are written. -/
theorem operationsWriteOnlyTheirRow : Obligations.OperationsWriteOnlyTheirRow := by
  intro i s t h
  refine ⟨?_, fun hrow => ?_, fun hrow => ?_⟩
  · obtain ⟨st, outLen, words, stream, draws, hends, -, hstream⟩ := completes_of_exec h
    exact ⟨_, stream, draws, hends, hstream⟩
  · cases i <;> simp [Instr.row] at hrow
    case qen g b => exact execQen_writesOneSlot h
    case pcy tick raw => exact execPcy_writesOneSlot h
  · cases i <;> simp [Instr.row] at hrow
    exact execQrs_slots h

end Sys2Proof.Machine
end

section
/-! What one step leaves unchanged, and the statements about the step itself: R71, R78, R104, the lifecycle of R23 and
R232, the mute hysteresis of R167, and the reset state of R290. -/

namespace Sys2Proof.Machine

/-! The step, by whose turn it is. -/

/-- The state at the turn of a port. -/
def State.atTurn (s : State) (turn : Turn) (sched : List Turn) : State := { s with sched := sched, issuer := turn.port }

@[simp] theorem State.atTurn_port (s : State) (turn : Turn) (sched : List Turn) (x : Port) :
    (s.atTurn turn sched).port x = s.port x := State.port_of_turn s sched turn.port x

@[simp] theorem State.atTurn_issuer (s : State) (turn : Turn) (sched : List Turn) :
    (s.atTurn turn sched).issuer = turn.port := rfl

@[simp] theorem State.atTurn_cfg (s : State) (turn : Turn) (sched : List Turn) :
    (s.atTurn turn sched).cfg = s.cfg := rfl

@[simp] theorem State.atTurn_life (s : State) (turn : Turn) (sched : List Turn) :
    (s.atTurn turn sched).life = s.life := rfl

@[simp] theorem State.atTurn_q (s : State) (turn : Turn) (sched : List Turn) :
    (s.atTurn turn sched).q = s.q := rfl

/-- Whose turn it is changes no piece of state. -/
theorem Item.same_atTurn (x : Item) (s : State) (turn : Turn) (sched : List Turn) : x.same s (s.atTurn turn sched) :=
  x.same_refl s

/-- With nothing scheduled the block waits. -/
theorem step_of_unscheduled {s : State} (h : s.sched = []) : step s = .next s := by
  rw [step, h]

/-- The turn of a port with an operation in flight. -/
theorem step_of_flight {s : State} {turn : Turn} {sched : List Turn} {f : Flight} (h : s.sched = turn :: sched)
    (hf : (s.port turn.port).flight = some f) : step s = advance f (s.atTurn turn sched) := by
  simp only [step, h, takeTurn, State.port_of_turn, hf]
  rfl

/-- The turn of a port with nothing in flight. -/
theorem step_of_idle {s : State} {turn : Turn} {sched : List Turn} (h : s.sched = turn :: sched)
    (hf : (s.port turn.port).flight = none) : step s = fetch turn.grain (s.atTurn turn sched) := by
  simp only [step, h, takeTurn, State.port_of_turn, hf]
  rfl

/-- A fetch of a whole command starts it. -/
theorem fetch_of_decode {s : State} {g : Grain} {i : Instr} {tail : List Word}
    (h : decode (s.port s.issuer).input = .ok (i, tail)) : fetch g s = start g i (s.consume tail) := by
  simp only [fetch, h]

/-- A word that no row matches leads a stream that the decoder rejects for the word's reason. -/
theorem decode_of_unmatched {w : Word} {rest : List Word} {e : DecodeError} (h : rowOf (Fields.ofWord w) = .error e) :
    decode (w :: rest) = .error e := by
  simp only [decode, h]

/-- A command word that no row matches is unassigned or has an unused field that is not 0 (R104). -/
theorem rowOf_error_cases {f : Fields} {e : DecodeError} (h : rowOf f = .error e) :
    e = .unassignedOpcode ∨ e = .unusedFieldNotZero := by
  rw [rowOf_eq] at h
  split at h
  · cases h
  · split at h <;> cases h <;> simp

/-- Settles O5: of such a word one alone is taken, and the refusal changes the port alone. -/
theorem unmatchedWordIsConsumedAlone : Obligations.UnmatchedWordIsConsumedAlone := by
  intro s turn sched w rest e hsched hidle hinput hrow
  have hdecode := decode_of_unmatched (rest := rest) hrow
  have hillegal : fetch turn.grain (s.atTurn turn sched) =
      ((s.atTurn turn sched).consume rest).raise .illegal [] := by
    obtain rfl | rfl := rowOf_error_cases hrow <;> simp [fetch, hinput, hdecode]
  rw [step_of_idle hsched hidle, hillegal]
  simp [State.respond, State.consume, PortState.respond, hidle, State.atTurn]
  rfl

/-- Settles O6: the port is idle and its words decode, so the step starts the operation at the turn's grain. -/
theorem stepRunsDecodedInstruction : Obligations.StepRunsDecodedInstruction := by
  intro s turn sched i tail hsched hidle hdecode hwf now
  have hstep : step s = start turn.grain i now := by
    rw [step_of_idle hsched hidle, fetch_of_decode (by simpa using hdecode)]
    simp only [State.consume, State.atTurn_issuer, State.atTurn_port]
    rfl
  exact ⟨fun hgrain => by rw [hstep, hgrain]; rfl, fun hgrain => by rw [hstep, hgrain]; rfl⟩

/-- Settles O7, by the schedule, the operation in flight and what was delivered. -/
theorem stepContinuesOrWaits : Obligations.StepContinuesOrWaits := by
  intro s
  refine ⟨step_of_unscheduled, fun turn sched hsched => ⟨fun f hf => step_of_flight hsched hf, fun hidle hwait => ?_⟩⟩
  rw [step_of_idle hsched hidle, fetch]
  obtain h | h := hwait <;> simp only [State.atTurn_port, State.atTurn_issuer, h] <;> rfl

/-! What a step leaves unchanged. -/

/-- Nothing outside `written` and the issuing port changes, nor the configuration. -/
structure Keeps (written : List Item) (s t : State) : Prop where
  rest : ∀ x, x ∉ written → x.same s t
  configuration : t.cfg = s.cfg
  issuer : t.issuer = s.issuer
  otherPorts : ∀ y, y ≠ s.issuer → t.port y = s.port y

/-- One change after another. -/
theorem Keeps.trans {written : List Item} {s u v : State} (h : Keeps written s u) (h' : Keeps written u v) :
    Keeps written s v where
  rest x hx := Item.same_trans (h.rest x hx) (h'.rest x hx)
  configuration := h'.configuration.trans h.configuration
  issuer := h'.issuer.trans h.issuer
  otherPorts y hy := (h'.otherPorts y (by rw [h.issuer]; exact hy)).trans (h.otherPorts y hy)

/-- A footprint may be said more coarsely. -/
theorem Keeps.mono {written written' : List Item} {s t : State} (h : Keeps written s t) (hsub : written ⊆ written') :
    Keeps written' s t :=
  { h with rest := fun x hx => h.rest x fun hmem => hx (hsub hmem) }

/-- A whole operation keeps what it does not write. -/
theorem Ends.keeps {written : List Item} {response : List Word} {stream : List Emission} {draws : Nat} {s t : State}
    (h : Ends written response stream draws s t) : Keeps written s t :=
  ⟨h.rest, h.configuration, h.issuer, h.otherPorts⟩

/-- A body and then a change of the issuing port. -/
theorem Touches.keeps_setPort {written : List Item} {stream : List Emission} {draws : Nat} {s u : State}
    (h : Touches written stream draws s u) (v : PortState) : Keeps written s (u.setPort u.issuer v) where
  rest x hx := Item.same_setPort _ _ (h.rest x hx)
  configuration := (u.setPort_cfg u.issuer v).trans h.configuration
  issuer := (u.setPort_issuer u.issuer v).trans h.issuer
  otherPorts y hy := by rw [State.setPort_port_other _ _ (by rw [h.issuer]; exact hy), h.ports]

/-- A body and then the response. -/
theorem Touches.keeps_respond {written : List Item} {stream : List Emission} {draws : Nat} {s u : State}
    (h : Touches written stream draws s u) (r : Reply) : Keeps written s (u.respond r) :=
  h.keeps_setPort _

/-- The end of an operation in flight and its response change the issuing port alone. -/
theorem State.land_respond (u : State) (r : Reply) :
    u.land.respond r = u.setPort u.issuer (({ u.port u.issuer with flight := none } : PortState).respond r) := by
  simp [State.land, State.respond]

/-- A body, the end of the operation in flight and the response. -/
theorem Touches.keeps_land_respond {written : List Item} {stream : List Emission} {draws : Nat} {s u : State}
    (h : Touches written stream draws s u) (r : Reply) : Keeps written s (u.land.respond r) :=
  u.land_respond r ▸ h.keeps_setPort _

/-- What every next state that a result can be keeps. -/
def StaysWithin (written : List Item) (s : State) (r : Result) : Prop := ∀ t, r = .next t → Keeps written s t

/-- One next state. -/
@[simp] theorem staysWithin_next {written : List Item} {s t : State} :
    StaysWithin written s (.next t) ↔ Keeps written s t :=
  ⟨fun h => h t rfl, fun h _ ht => by cases ht; exact h⟩

/-- A fault is no next state. -/
@[simp] theorem staysWithin_fault (written : List Item) (s : State) (e : Fault) : StaysWithin written s (.fault e) :=
  fun _ h => by cases h

/-- A footprint may be said more coarsely. -/
theorem StaysWithin.mono {written written' : List Item} {s : State} {r : Result} (h : StaysWithin written s r)
    (hsub : written ⊆ written') : StaysWithin written' s r := fun t ht => (h t ht).mono hsub

/-- The checks before an operation keep what its body keeps. -/
theorem StaysWithin.gate {written : List Item} {s : State} {row : Row} {body : State → Result}
    (h : StaysWithin written s (body s)) : StaysWithin written s (s.gate row body) := by
  intro t ht
  obtain ⟨-, -, hbody⟩ | ⟨r, rfl⟩ := State.gate_next ht
  · exact h t hbody
  · exact (Touches.refl written s).keeps_respond r

/-- A whole operation keeps what is not in its row of the table (R50). -/
theorem exec_staysWithin (i : Instr) (s : State) : StaysWithin (mayWrite i) s (exec i s) := by
  intro t ht
  obtain ⟨st, outLen, words, stream, draws, hends, -, -⟩ := completes_of_exec ht
  exact hends.keeps

/-- The pieces of state that the next step of an operation in flight may write (R78). -/
def Flight.mayWrite : Flight → List Item
  | .enqWrite _ _ _ _ => [.slots]
  | .enqCommit _ _ _ => [.writeCursor, .occupancy, .total]
  | .deqHeader _ | .pcyOccupancy _ _ | .pcyTotal _ _ _ | .pcyEnqueue _ _ _ | .ccyDequeue => []
  | .deqRead _ _ _ _ => [.readCursor, .occupancy, .total]
  | .deqFamily _ _ _ => [.family]
  | .fbuRest _ _ | .pcyUpdate _ _ _ _ => [.feedbackValue, .feedbackTicks]
  | .pcyZero _ _ | .pcyOversample _ _ _ _ => [.stage .s0, .stage .s1, .stage .s2]
  | .pcyAsk _ _ => [.resetRequest]
  | .pcyFeedback _ _ => [.feedbackValue, .feedbackTicks, .feedbackBounds]
  | .ccyZero | .ccyEntryZero | .ccyEncode _ _ _ => [.modulator]
  | .ccyMute => [.mute, .readCursor, .occupancy, .total]

/-- The end of an enqueue changes the issuing port alone. -/
theorem endEnqueue_staysWithin {written : List Item} {s u : State} (h : Touches written [] 0 s u)
    (caller : EnqueueFor) (st : Status) : StaysWithin written s (endEnqueue caller st u) := by
  cases caller <;> exact staysWithin_next.mpr (h.keeps_land_respond _)

/-- Step 1 of `QEN` changes the issuing port alone. -/
theorem beginEnqueue_staysWithin (caller : EnqueueFor) (g : Family) (b : Block) (s : State) :
    StaysWithin [] s (beginEnqueue caller g b s) := by
  unfold beginEnqueue
  split_ifs
  · exact endEnqueue_staysWithin (Touches.refl _ s) caller _
  · exact endEnqueue_staysWithin (Touches.refl _ s) caller _
  · exact staysWithin_next.mpr ((Touches.refl _ s).keeps_setPort _)

/-- Step 1 of `QDE` changes the issuing port alone. -/
theorem beginDequeue_staysWithin (caller : DequeueFor) (s : State) : StaysWithin [] s (beginDequeue caller s) := by
  unfold beginDequeue
  split
  · cases caller <;> exact staysWithin_next.mpr ((Touches.refl _ s).keeps_land_respond _)
  · exact staysWithin_next.mpr ((Touches.refl _ s).keeps_setPort _)

/-- The payload steps of `QEN` write slots. -/
theorem stepEnqueueWrite_staysWithin (caller : EnqueueFor) (g : Family) (b : Block) (j : Nat) (s : State) :
    StaysWithin [.slots] s (stepEnqueueWrite caller g b j s) := by
  unfold stepEnqueueWrite
  split
  · split
    · exact staysWithin_fault _ _ _
    · exact staysWithin_next.mpr ((writeData_touches _ s).keeps_setPort _)
  · exact staysWithin_next.mpr ((writeHeader_touches g b.length s).keeps_setPort _)

/-- The payload steps of `QDE` write nothing, its commit the read cursor and the counters. -/
theorem stepDequeueRead_staysWithin (caller : DequeueFor) (g : Family) (n : Nat) (got : Block) (s : State) :
    StaysWithin [.readCursor, .occupancy, .total] s (stepDequeueRead caller g n got s) := by
  unfold stepDequeueRead
  split
  · split
    · exact staysWithin_fault _ _ _
    · exact staysWithin_next.mpr ((Touches.refl _ s).keeps_setPort _)
  · exact staysWithin_next.mpr ((commitDequeue_touches n s).keeps_setPort _)

/-- The mute transition writes `mute.state` and, at mute entry, the queue from the consumer's side. -/
theorem stepMute_staysWithin (s : State) :
    StaysWithin [.mute, .readCursor, .occupancy, .total] s (stepMute s) := by
  unfold stepMute
  split_ifs
  · exact staysWithin_next.mpr ((enterMute_touches s).keeps_setPort _)
  · exact staysWithin_next.mpr ((Touches.refl _ s).keeps_setPort _)
  · exact staysWithin_next.mpr (((leaveMute_touches s).mono (by simp)).keeps_setPort _)
  · exact staysWithin_next.mpr ((Touches.refl _ s).keeps_setPort _)

/-- Line 5 of `CCY` writes the modulator. -/
theorem stepEncode_staysWithin (todo : Block) (words : List (Word × Word)) (st : Status) (s : State) :
    StaysWithin [.modulator] s (stepEncode todo words st s) := by
  cases todo with
  | nil =>
    have hland : Keeps [.modulator] s s.land := (Touches.refl _ s).keeps_setPort _
    exact staysWithin_next.mpr (hland.trans (finishEncoding_ends (Touches.refl _ s.land) st words).keeps)
  | cons p rest =>
    obtain ⟨k, hk⟩ := encodePair_touches p s
    rw [stepEncode]
    split
    case h_1 w u hu =>
      rw [hu] at hk
      exact staysWithin_next.mpr (hk.keeps_setPort _)
    case h_2 u hu =>
      rw [hu] at hk
      obtain ⟨stream, hends⟩ := finishOverflow_ends (Touches.refl [.modulator] u.land)
      have hland : Keeps [.modulator] s u.land := hk.keeps_setPort _
      exact staysWithin_next.mpr (hland.trans hends.keeps)

/-- `PCY` lines 2 to 4 change the issuing port alone. -/
theorem stepCycleOccupancy_staysWithin (tick : Word) (raw : Block) (s : State) :
    StaysWithin [] s (stepCycleOccupancy tick raw s) := by
  unfold stepCycleOccupancy
  split
  · exact staysWithin_next.mpr ((Touches.refl _ s).keeps_land_respond _)
  · split
    · exact staysWithin_next.mpr ((Touches.refl _ s).keeps_land_respond _)
    · exact staysWithin_next.mpr ((Touches.refl _ s).keeps_setPort _)

/-- `PCY` line 7 writes the feedback registers. -/
theorem stepCycleUpdate_staysWithin (tick : Word) (rate : Rate) (y : Block) (total : Nat) (s : State) :
    StaysWithin [.feedbackValue, .feedbackTicks] s (stepCycleUpdate tick rate y total s) := by
  have hupdate := updateFeedback_touches tick total s
  unfold stepCycleUpdate
  dsimp only
  split
  · exact staysWithin_next.mpr (hupdate.keeps_land_respond _)
  · exact staysWithin_next.mpr (hupdate.keeps_setPort _)

/-- The end of a dequeue changes what the family line's write changed, and the issuing port. -/
theorem endDequeue_staysWithin {written : List Item} {s u : State} (h : Touches written [] 0 s u)
    (caller : DequeueFor) (g : Family) (b : Block) : StaysWithin written s (endDequeue caller g b u) := by
  cases caller
  · exact staysWithin_next.mpr (h.keeps_land_respond _)
  · exact staysWithin_next.mpr (h.keeps_setPort _)

/-- The second step of `FBU` writes the feedback registers. -/
theorem finishUpdate_land_staysWithin (tick : Word) (total : Nat) (s : State) :
    StaysWithin [.feedbackValue, .feedbackTicks] s (finishUpdate tick total s.land) := by
  have hland : Keeps [.feedbackValue, .feedbackTicks] s s.land := (Touches.refl _ s).keeps_setPort _
  exact staysWithin_next.mpr (hland.trans ((updateFeedback_touches tick total s.land).keeps_respond _))

/-- The next step of an operation in flight keeps what it may not write. -/
theorem advance_staysWithin (f : Flight) (s : State) : StaysWithin f.mayWrite s (advance f s) := by
  cases f with
  | enqWrite caller g b j => exact stepEnqueueWrite_staysWithin caller g b j s
  | enqCommit caller g b => exact endEnqueue_staysWithin (commitEnqueue_touches b.length s) caller .ok
  | deqHeader caller => exact staysWithin_next.mpr ((Touches.refl _ s).keeps_setPort _)
  | deqRead caller g n got => exact stepDequeueRead_staysWithin caller g n got s
  | deqFamily caller g b => exact endDequeue_staysWithin (setFamily_touches g s) caller g b
  | fbuRest tick total => exact finishUpdate_land_staysWithin tick total s
  | pcyZero tick raw => exact staysWithin_next.mpr ((zeroCascade_touches s).keeps_setPort _)
  | pcyAsk tick raw => exact staysWithin_next.mpr ((askModulatorReset_touches s).keeps_setPort _)
  | pcyFeedback tick raw => exact staysWithin_next.mpr ((configureFeedback_touches s).keeps_setPort _)
  | pcyOccupancy tick raw => exact stepCycleOccupancy_staysWithin tick raw s
  | pcyOversample tick rate x occ0 =>
    exact staysWithin_next.mpr
      (((runCascade_touches rate x s).mono (firstStages_items_subset rate)).keeps_setPort _)
  | pcyTotal tick rate y => exact staysWithin_next.mpr ((Touches.refl _ s).keeps_setPort _)
  | pcyUpdate tick rate y total => exact stepCycleUpdate_staysWithin tick rate y total s
  | pcyEnqueue rate y feedback => exact beginEnqueue_staysWithin _ _ y s
  | ccyZero => exact staysWithin_next.mpr ((zeroModulator_touches s).keeps_setPort _)
  | ccyMute => exact stepMute_staysWithin s
  | ccyEntryZero => exact staysWithin_next.mpr ((zeroModulator_touches s).keeps_setPort _)
  | ccyDequeue => exact beginDequeue_staysWithin _ s
  | ccyEncode todo words st => exact stepEncode_staysWithin todo words st s

/-- The first step of an operation with several, past its checks, writes what its body writes. -/
theorem begin_cases_of_body {i : Instr} {s : State} {body : State → Result} (hbegin : begin i s = s.gate i.row body)
    (hneeds : runsUnready i.row = false) (hbody : StaysWithin [.fvUpdated, .resetRequest] s (body s)) :
    begin i s = exec i s ∨
      (s.issuer ∈ ports i.row ∧ s.life = .ready ∧ StaysWithin [.fvUpdated, .resetRequest] s (begin i s)) := by
  obtain ⟨whole, hexec⟩ := exec_gated i s
  by_cases hport : s.issuer ∈ ports i.row
  · by_cases hlife : s.life = .ready
    · exact .inr ⟨hport, hlife, hbegin ▸ hbody.gate⟩
    · exact .inl (by rw [hbegin, hexec, State.gate_notReady _ hport hlife hneeds, State.gate_notReady _ hport hlife hneeds])
  · exact .inl (by rw [hbegin, hexec, State.gate_wrongPort _ hport, State.gate_wrongPort _ hport])

/-- The first step of an operation is all of it, or it writes no more than a signal that it takes. -/
theorem begin_cases (i : Instr) (s : State) :
    begin i s = exec i s ∨
      (s.issuer ∈ ports i.row ∧ s.life = .ready ∧ StaysWithin [.fvUpdated, .resetRequest] s (begin i s)) := by
  cases i
  case qen g b => exact begin_cases_of_body rfl rfl ((beginEnqueue_staysWithin .command g b s).mono (by simp))
  case qde => exact begin_cases_of_body rfl rfl ((beginDequeue_staysWithin .command s).mono (by simp))
  case fbu tick =>
    refine begin_cases_of_body (body := fun s => s.goOn (.fbuRest tick s.q.total)) rfl rfl ?_
    exact staysWithin_next.mpr ((Touches.refl _ s).keeps_setPort _)
  case pcy tick raw =>
    refine begin_cases_of_body (body := beginCycle tick raw) rfl rfl ?_
    have htake := (takeUpdated_touches s).mono (written' := [.fvUpdated, .resetRequest]) (by simp)
    unfold beginCycle
    split <;> exact staysWithin_next.mpr (htake.keeps_setPort _)
  case ccy =>
    refine begin_cases_of_body (body := beginConsume) rfl rfl ?_
    have htake := (takeResetRequest_touches s).mono (written' := [.fvUpdated, .resetRequest]) (by simp)
    unfold beginConsume
    split <;> exact staysWithin_next.mpr (htake.keeps_setPort _)
  all_goals exact .inl rfl

/-! Everything a step that answers a next state can do. -/

/-- A whole operation that answers a next state was accepted, or it has answered a refusal and changed nothing. -/
theorem exec_next {i : Instr} {s t : State} (h : exec i s = .next t) :
    (s.issuer ∈ ports i.row ∧ (s.life = .ready ∨ runsUnready i.row = true)) ∨ ∃ r : Reply, t = s.respond r := by
  obtain ⟨body, hbody⟩ := exec_gated i s
  rw [hbody] at h
  obtain ⟨hport, hlife, -⟩ | hrefused := State.gate_next h
  · exact .inl ⟨hport, hlife⟩
  · exact .inr hrefused

/-- A step: nothing scheduled; a step in flight; a command read and run whole, or begun; or no command read, and then no
more than the issuing port's words change. -/
theorem step_next_cases {s t : State} (h : step s = .next t) :
    (s.sched = [] ∧ t = s) ∨
    ∃ turn sched, s.sched = turn :: sched ∧
      ((∃ f, (s.port turn.port).flight = some f ∧ advance f (s.atTurn turn sched) = .next t) ∨
      ((s.port turn.port).flight = none ∧
        ((∃ i rest, decode (s.port turn.port).input = .ok (i, rest) ∧
            exec i ((s.atTurn turn sched).consume rest) = .next t) ∨
        (∃ i rest, decode (s.port turn.port).input = .ok (i, rest) ∧ s.life = .ready ∧ turn.port ∈ ports i.row ∧
            begin i ((s.atTurn turn sched).consume rest) = .next t ∧
            StaysWithin [.fvUpdated, .resetRequest] ((s.atTurn turn sched).consume rest)
              (begin i ((s.atTurn turn sched).consume rest))) ∨
        (∃ v : PortState, v.flight = none ∧ t = (s.atTurn turn sched).setPort turn.port v)))) := by
  cases hsched : s.sched with
  | nil =>
    rw [step_of_unscheduled hsched] at h
    cases h
    exact .inl ⟨rfl, rfl⟩
  | cons turn sched =>
    refine .inr ⟨turn, sched, rfl, ?_⟩
    cases hflight : (s.port turn.port).flight with
    | some f =>
      rw [step_of_flight hsched hflight] at h
      exact .inl ⟨f, rfl, h⟩
    | none =>
      rw [step_of_idle hsched hflight] at h
      refine .inr ⟨rfl, ?_⟩
      obtain ⟨i, rest, hdecode, hfetch⟩ | ⟨-, hfetch⟩ | ⟨-, hfetch⟩ := fetch_cases turn.grain (s.atTurn turn sched) <;>
        rw [hfetch] at h
      · rw [State.atTurn_port, State.atTurn_issuer] at hdecode
        cases hgrain : turn.grain with
        | whole =>
          rw [hgrain] at h
          exact .inl ⟨i, rest, hdecode, h⟩
        | single =>
          rw [hgrain] at h
          obtain hwhole | ⟨hport, hready, hwithin⟩ := begin_cases i ((s.atTurn turn sched).consume rest)
          · exact .inl ⟨i, rest, hdecode, hwhole ▸ h⟩
          · exact .inr (.inl ⟨i, rest, hdecode, by simpa using hready, by simpa using hport, h, hwithin⟩)
      · cases h
        refine .inr (.inr ⟨s.port turn.port, hflight, ?_⟩)
        conv_lhs => rw [← State.setPort_self (s.atTurn turn sched) turn.port, State.atTurn_port]
      · cases h
        refine .inr (.inr ⟨({ s.port turn.port with input := (s.port turn.port).input.tail } : PortState).respond
          (Reply.plain .illegal []), hflight, ?_⟩)
        simp [State.respond, State.consume]

/-! The lifecycle. -/

/-- The three ports. -/
theorem Port.forall_iff {P : Port → Prop} : (∀ x, P x) ↔ P .p ∧ P .c ∧ P .t :=
  ⟨fun h => ⟨h _, h _, h _⟩, fun ⟨hp, hc, ht⟩ x => by cases x <;> assumption⟩

/-- The lifecycle invariant, port by port. -/
theorem lifecycleInv_iff {s : State} :
    LifecycleInv s ↔ (s.life = .ready → configOk s.cfg = true) ∧ (s.life ≠ .ready → ∀ x, (s.port x).flight = none) := by
  rw [Port.forall_iff]
  exact Iff.rfl

/-- An operation in flight shows that the block is `READY`. -/
theorem LifecycleInv.ready_of_flight {s : State} {x : Port} {f : Flight} (h : LifecycleInv s)
    (hf : (s.port x).flight = some f) : s.life = .ready := by
  by_contra hlife
  rw [(lifecycleInv_iff.mp h).2 hlife x] at hf
  cases hf

/-- Only `INIT` may write `sys.life` (R50). -/
theorem eq_init_of_writes_life {i : Instr} (h : Item.life ∈ mayWrite i) : i = .init := by
  cases i <;> simp [mayWrite, stageItems] at h ⊢

/-- Only `CCY` may write `mute.state` (R50). -/
theorem eq_ccy_of_writes_mute {i : Instr} (h : Item.mute ∈ mayWrite i) : i = .ccy := by
  cases i <;> simp [mayWrite, stageItems] at h ⊢

/-- A whole operation leaves `sys.life`, unless it is an `INIT` that ran. -/
theorem exec_life {i : Instr} {s t : State} (h : exec i s = .next t) :
    t.life = s.life ∨ (i = .init ∧ s.issuer = .p ∧ s.life = .uninit ∧ t.life = initLife s.cfg) := by
  by_cases hi : Item.life ∈ mayWrite i
  · obtain rfl := eq_init_of_writes_life hi
    by_cases hport : s.issuer = .p
    · rw [exec_init_eq hport] at h
      split at h
      case isTrue hlife =>
        cases h
        exact .inr ⟨rfl, hport, hlife, by simp⟩
      case isFalse =>
        cases h
        exact .inl (by simp)
    · obtain hrun | ⟨r, rfl⟩ := exec_next h
      · exact absurd (by simpa [Instr.row, ports] using hrun.1) hport
      · exact .inl (s.respond_life r)
  · exact .inl ((exec_staysWithin i s t h).rest .life hi)

/-- The next step of an operation in flight leaves `sys.life`. -/
theorem advance_life {f : Flight} {s t : State} (h : advance f s = .next t) : t.life = s.life :=
  (advance_staysWithin f s t h).rest .life (by cases f <;> simp [Flight.mayWrite])

/-- A step writes no configuration. -/
theorem step_cfg {s t : State} (h : step s = .next t) : t.cfg = s.cfg := by
  obtain ⟨-, rfl⟩ | ⟨turn, sched, -, ⟨f, -, h⟩ | ⟨-, ⟨i, rest, -, h⟩ | ⟨i, rest, -, -, -, h, hwithin⟩ | ⟨v, -, rfl⟩⟩⟩ :=
    step_next_cases h
  · rfl
  · exact (advance_staysWithin f _ t h).configuration
  · exact (exec_staysWithin i _ t h).configuration.trans (by simp)
  · exact (hwithin t h).configuration.trans (by simp)
  · simp

/-- A step leaves `sys.life`, unless it is an `INIT` that ran on the `P` port. -/
theorem step_life {s t : State} (h : step s = .next t) :
    t.life = s.life ∨
    (s.life = .uninit ∧ t.life = initLife s.cfg ∧ ∃ turn sched tail, s.sched = turn :: sched ∧ turn.port = .p ∧
      decode s.portP.input = .ok (.init, tail)) := by
  obtain ⟨-, rfl⟩ | ⟨turn, sched, hsched,
    ⟨f, -, h⟩ | ⟨-, ⟨i, rest, hdecode, h⟩ | ⟨i, rest, -, -, -, h, hwithin⟩ | ⟨v, -, rfl⟩⟩⟩ := step_next_cases h
  · exact .inl rfl
  · exact .inl ((advance_life h).trans (s.atTurn_life turn sched))
  · obtain hsame | ⟨rfl, hport, hlife, ht⟩ := exec_life h
    · exact .inl (hsame.trans (by simp))
    · have hp : turn.port = .p := by simpa using hport
      rw [hp] at hdecode
      exact .inr ⟨by simpa using hlife, by simpa using ht, turn, sched, rest, hsched, hp, hdecode⟩
  · have hsame := (hwithin t h).rest .life (by simp)
    exact .inl (Eq.trans hsame (by simp))
  · exact .inl (by simp)

/-- An operation that completes leaves no new operation in flight. -/
theorem Ends.flights {written : List Item} {response : List Word} {stream : List Emission} {draws : Nat} {s t : State}
    (h : Ends written response stream draws s t) (x : Port) : (t.port x).flight = (s.port x).flight := by
  by_cases hx : x = s.issuer
  · rw [hx, h.flight]
  · rw [h.otherPorts x hx]

/-- A whole operation leaves every operation in flight as it is. -/
theorem exec_flights {i : Instr} {s t : State} (h : exec i s = .next t) (x : Port) :
    (t.port x).flight = (s.port x).flight := by
  obtain ⟨st, outLen, words, stream, draws, hends, -, -⟩ := completes_of_exec h
  exact hends.flights x

/-- Reading words off a port leaves every operation in flight as it is. -/
@[simp] theorem State.consume_flight (s : State) (ws : List Word) (x : Port) :
    ((s.consume ws).port x).flight = (s.port x).flight := by
  by_cases hx : x = s.issuer
  · rw [hx, State.consume_port_issuer]
  · rw [State.consume_port_other s ws hx]

/-- With nothing in flight and a block that is not `READY`, nothing comes into flight. -/
theorem step_flights_of_unready {s t : State} (hidle : ∀ x, (s.port x).flight = none) (hlife : s.life ≠ .ready)
    (h : step s = .next t) (x : Port) : (t.port x).flight = none := by
  obtain ⟨-, rfl⟩ | ⟨turn, sched, -,
    ⟨f, hf, -⟩ | ⟨-, ⟨i, rest, -, h⟩ | ⟨i, rest, -, hready, -⟩ | ⟨v, hv, rfl⟩⟩⟩ := step_next_cases h
  · exact hidle x
  · rw [hidle turn.port] at hf
    cases hf
  · rw [exec_flights h, State.consume_flight, State.atTurn_port, hidle x]
  · exact absurd hready hlife
  · by_cases hx : x = turn.port
    · rw [hx, State.setPort_port_same, hv]
    · rw [State.setPort_port_other _ _ hx, State.atTurn_port, hidle x]

/-- The lifecycle invariant is kept. -/
theorem LifecycleInv.step {s t : State} (hinv : LifecycleInv s) (h : step s = .next t) : LifecycleInv t := by
  obtain ⟨hconfig, hidle⟩ := lifecycleInv_iff.mp hinv
  refine lifecycleInv_iff.mpr ⟨fun ht => ?_, fun ht x => ?_⟩
  · rw [step_cfg h]
    obtain hsame | ⟨-, hinit, -⟩ := step_life h
    · exact hconfig (hsame.symm.trans ht)
    · rw [ht] at hinit
      by_contra hbad
      simp [initLife, hbad] at hinit
  · have hs : s.life ≠ .ready := by
      obtain hsame | ⟨hun, -⟩ := step_life h
      · rwa [← hsame]
      · simp [hun]
    exact step_flights_of_unready (hidle hs) hs h x

/-- Settles O60, by what a step does to `sys.life`. -/
theorem lifecycleChangesOnlyByInit : Obligations.LifecycleChangesOnlyByInit := by
  intro s t hinv h
  refine ⟨hinv.step h, step_cfg h, fun hlife => ?_, fun hchange => ?_⟩
  · obtain hsame | ⟨hun, -⟩ := step_life h
    · exact hsame
    · exact absurd hun hlife
  · obtain hsame | ⟨-, hinit, turn, sched, tail, hsched, hport, hdecode⟩ := step_life h
    · exact absurd hsame hchange
    · exact ⟨turn, sched, tail, hsched, hport, hdecode, hinit⟩

/-! The mute state machine. -/

/-- What an operation may do to `mute.state`: leave `MUTED` at the play threshold, enter it on an empty queue (R167). -/
def Hysteresis (s t : State) : Prop :=
  (s.mute = .muted → t.mute = .playing → s.cfg.playThreshold ≤ s.q.occ) ∧
  (s.mute = .playing → t.mute = .muted → s.q.occ = 0)

/-- It may leave `mute.state` as it is. -/
theorem Hysteresis.of_same {s t : State} (h : t.mute = s.mute) : Hysteresis s t :=
  ⟨fun hs ht => by simp [h, hs] at ht, fun hs ht => by simp [h, hs] at ht⟩

/-- It looks at the mute state, the occupancy and the configuration alone. -/
theorem Hysteresis.congr {s s' t t' : State} (hmute : s'.mute = s.mute) (hocc : s'.q.occ = s.q.occ)
    (hcfg : s'.cfg = s.cfg) (ht : t'.mute = t.mute) (h : Hysteresis s t) : Hysteresis s' t' := by
  rwa [Hysteresis, hmute, hocc, hcfg, ht]

/-- A footprint without `mute.state` leaves it. -/
theorem Keeps.mute_eq {written : List Item} {s t : State} (h : Keeps written s t) (hm : Item.mute ∉ written) :
    t.mute = s.mute := h.rest .mute hm

/-- The encoding of a consumer cycle always answers, and writes the modulator alone. -/
theorem encodeAndFinish_next (st : Status) (b : Block) (s : State) :
    ∃ t response stream draws, encodeAndFinish st b s = .next t ∧ Ends [.modulator] response stream draws s t := by
  obtain ⟨k, hk⟩ := encodeBlock_touches b s
  unfold encodeAndFinish
  split
  case h_1 ws v hv =>
    rw [hv] at hk
    exact ⟨_, _, _, _, rfl, finishEncoding_ends hk st ws⟩
  case h_2 v hv =>
    rw [hv] at hk
    obtain ⟨stream, hends⟩ := finishOverflow_ends hk
    exact ⟨_, _, _, _, rfl, hends⟩

/-- What the encoding of a consumer cycle keeps. -/
theorem encodeAndFinish_staysWithin (st : Status) (b : Block) (s : State) :
    StaysWithin [.modulator] s (encodeAndFinish st b s) := by
  obtain ⟨t, response, stream, draws, h, hends⟩ := encodeAndFinish_next st b s
  rw [h]
  exact staysWithin_next.mpr hends.keeps

/-- What lines 4 and 5 of `CCY` keep. -/
theorem playFrame_staysWithin (s : State) :
    StaysWithin [.readCursor, .occupancy, .total, .family, .modulator] s (playFrame s) := by
  unfold playFrame
  split
  case h_1 => exact staysWithin_fault _ _ _
  case h_2 g b u hu =>
    intro t ht
    have hdequeue : Keeps [.readCursor, .occupancy, .total, .family, .modulator] s u := by
      have htouch := (dequeue_touches hu).mono (written' := [.readCursor, .occupancy, .total, .family, .modulator])
        (by simp)
      exact ⟨htouch.rest, htouch.configuration, htouch.issuer, fun y _ => htouch.ports y⟩
    exact hdequeue.trans ((encodeAndFinish_staysWithin _ b u t ht).mono (by simp))
  case h_3 u hu =>
    exact staysWithin_next.mpr (((dequeue_touches hu).mono (by simp)).keeps_respond _)

/-- A whole consumer cycle. -/
theorem execCcy_hysteresis {s t : State} (h : exec .ccy s = .next t) : Hysteresis s t := by
  rw [exec, execCcy] at h
  obtain ⟨-, -, h⟩ | ⟨r, rfl⟩ := State.gate_next h
  · have hrequest := honourResetRequest_touches s
    have hmute : s.mute = (honourResetRequest s).mute := (hrequest.rest .mute (by simp)).symm
    have hocc : s.q.occ = (honourResetRequest s).q.occ := (hrequest.rest .occupancy (by simp)).symm
    refine Hysteresis.congr hmute hocc hrequest.configuration.symm rfl ?_
    generalize honourResetRequest s = u at h
    unfold muteAndPlay at h
    split_ifs at h with henter hplaying hthreshold
    · exact ⟨fun hs => by simp [henter.1] at hs, fun _ _ => henter.2⟩
    · have hsame := (playFrame_staysWithin u t h).mute_eq (by simp)
      exact .of_same hsame
    · refine ⟨fun _ _ => hthreshold, fun hs => absurd hs hplaying⟩
    · have hsame := (encodeAndFinish_staysWithin _ _ u t h).mute_eq (by simp)
      exact .of_same hsame
  · exact .of_same (s.respond_mute r)

/-- A whole operation. -/
theorem exec_hysteresis {i : Instr} {s t : State} (h : exec i s = .next t) : Hysteresis s t := by
  by_cases hi : Item.mute ∈ mayWrite i
  · obtain rfl := eq_ccy_of_writes_mute hi
    exact execCcy_hysteresis h
  · exact .of_same ((exec_staysWithin i s t h).mute_eq hi)

/-- The mute transition as a step of its own. -/
theorem stepMute_hysteresis {s t : State} (h : stepMute s = .next t) : Hysteresis s t := by
  unfold stepMute at h
  split_ifs at h with henter hplaying hthreshold
  · exact ⟨fun hs => by simp [henter.1] at hs, fun _ _ => henter.2⟩
  · cases h
    exact .of_same (by simp)
  · exact ⟨fun _ _ => hthreshold, fun hs => absurd hs hplaying⟩
  · cases h
    exact .of_same (by simp)

/-- The next step of an operation in flight. -/
theorem advance_hysteresis {f : Flight} {s t : State} (h : advance f s = .next t) : Hysteresis s t := by
  by_cases hf : Item.mute ∈ f.mayWrite
  · obtain rfl : f = .ccyMute := by
      cases f <;> simp [Flight.mayWrite] at hf ⊢
    exact stepMute_hysteresis h
  · exact .of_same ((advance_staysWithin f s t h).mute_eq hf)

/-- Settles O55: only a `CCY`, whole or at its mute transition, writes `mute.state`. -/
theorem muteHysteresis : Obligations.MuteHysteresis := by
  intro s t h
  obtain ⟨-, rfl⟩ | ⟨turn, sched, -,
    ⟨f, -, h⟩ | ⟨-, ⟨i, rest, -, h⟩ | ⟨i, rest, -, -, -, h, hwithin⟩ | ⟨v, -, rfl⟩⟩⟩ := step_next_cases h
  · exact Hysteresis.of_same rfl
  · exact (advance_hysteresis h).congr rfl rfl rfl rfl
  · exact (exec_hysteresis h).congr (by simp [State.atTurn]) (by simp) (by simp) rfl
  · exact Hysteresis.of_same (((hwithin t h).mute_eq (by simp)).trans (by simp [State.atTurn]))
  · exact Hysteresis.of_same (by simp [State.atTurn])

end Sys2Proof.Machine
end

section
/-! The invariants of the registers that one agent alone writes (spec/10_state.md sections 3, 4, 5 and 7): the valid
format, the shape of the cascade and the modulator, the feedback band; each as a property that every operation and
every step keeps. -/

namespace Sys2Proof.Machine

/-- A property of the registers that no signal take breaks is kept by a step when every whole operation and every step of
an operation in flight keep it. -/
theorem step_keeps_of {Inv : State → Prop} {s t : State}
    (registers : ∀ u v : State, v.cfg = u.cfg → (∀ x, x ∉ [Item.fvUpdated, .resetRequest] → x.same u v) → Inv u → Inv v)
    (whole : ∀ (i : Instr) (u v : State), u.life = s.life → u.cfg = s.cfg → Inv u → exec i u = .next v → Inv v)
    (single : ∀ (f : Flight) (u v : State), u.life = s.life → u.cfg = s.cfg → (∃ x, (s.port x).flight = some f) →
      Inv u → advance f u = .next v → Inv v)
    (hs : Inv s) (h : step s = .next t) : Inv t := by
  obtain ⟨-, rfl⟩ | ⟨turn, sched, -,
    ⟨f, hf, h⟩ | ⟨-, ⟨i, rest, -, h⟩ | ⟨i, rest, -, -, -, h, hwithin⟩ | ⟨v, -, rfl⟩⟩⟩ := step_next_cases h
  · exact hs
  · exact single f (s.atTurn turn sched) t rfl rfl ⟨turn.port, hf⟩
      (registers s (s.atTurn turn sched) rfl (fun x _ => x.same_atTurn s turn sched) hs) h
  · refine whole i _ t (by simp) (by simp) (registers s _ (by simp) (fun x _ => ?_) hs) h
    exact Item.same_setPort _ _ (x.same_atTurn s turn sched)
  · have hkeeps := hwithin t h
    refine registers s t (hkeeps.configuration.trans (by simp)) (fun x hx => ?_) hs
    exact Item.same_trans (Item.same_setPort _ _ (x.same_atTurn s turn sched)) (hkeeps.rest x hx)
  · exact registers s _ (by simp) (fun x _ => Item.same_setPort _ _ (x.same_atTurn s turn sched)) hs

/-! The format (R25). -/

/-- The invariant looks at the stored format and the last candidates alone. -/
theorem FormatInv.congr {s t : State} (hfmt : Item.fmt.same s t) (hprev : Item.fvPrev.same s t) (h : FormatInv s) :
    FormatInv t := by
  simp only [Item.same] at hfmt hprev
  rwa [FormatInv, hfmt, hprev.1, hprev.2]

/-- An observation validates the pair that it stores as the last candidates. -/
theorem FormatInv.observe {s : State} (h : FormatInv s) (cr : Option Rate) (cd : Option Depth) :
    FormatInv (observe cr cd s) := by
  obtain ⟨hok, hvalid, he⟩ | ⟨hok, -, he⟩ | ⟨-, he⟩ := observe_cases cr cd s <;> rw [he] <;> intro hv
  · obtain ⟨hrate, hdepth, hr, hd⟩ := h hvalid
    obtain ⟨-, -, hcr, hcd⟩ := observationOk_iff.mp hok
    exact ⟨hrate, hdepth, hcr.trans hr, hcd.trans hd⟩
  · obtain ⟨hcr, hcd, -, -⟩ := observationOk_iff.mp hok
    exact ⟨hcr, hcd, rfl, rfl⟩
  · cases hv

/-- A whole operation keeps it: only the validator writes these registers. -/
theorem FormatInv.exec {i : Instr} {s t : State} (hs : FormatInv s) (h : exec i s = .next t) : FormatInv t := by
  have hkeeps := exec_staysWithin i s t h
  cases i
  case fvo ww bw =>
    rw [exec_fvo, execFvo] at h
    obtain ⟨-, -, hbody⟩ | ⟨r, rfl⟩ := State.gate_next h
    · cases hbody
      simpa [FormatInv] using hs.observe (candRate s.cfg ww) (candDepth s.cfg ww bw)
    · simpa [FormatInv] using hs
  case fvd rateHz depthBits =>
    rw [exec_fvd, execFvd] at h
    obtain ⟨-, -, hbody⟩ | ⟨r, rfl⟩ := State.gate_next h
    · split at hbody <;> cases hbody
      · simp [FormatInv, declareGood]
      · simp [FormatInv]
    · simpa [FormatInv] using hs
  all_goals
    exact hs.congr (hkeeps.rest _ (by simp [mayWrite, stageItems])) (hkeeps.rest _ (by simp [mayWrite, stageItems]))

/-- Settles O19: no operation in flight writes the format. -/
theorem formatInvKept : Obligations.FormatInvKept := by
  intro s t hs h
  refine step_keeps_of (Inv := FormatInv) (fun u v _ hsame hu => ?_) (fun i u v _ _ hu hv => hu.exec hv)
    (fun f u v _ _ _ hu hv => ?_) hs h
  · exact hu.congr (hsame _ (by simp)) (hsame _ (by simp))
  · have hkeeps := advance_staysWithin f u v hv
    exact hu.congr (hkeeps.rest _ (by cases f <;> simp [Flight.mayWrite]))
      (hkeeps.rest _ (by cases f <;> simp [Flight.mayWrite]))

/-! The shape of the cascade and the modulator (R31, R33). -/

/-- The part of the shape invariant that speaks of the registers. -/
def Shaped (s : State) : Prop :=
  (∀ st, StageShape (s.cfg.lineLength st) (s.os.get st)) ∧ ChannelShape s.cfg s.ds.left ∧ ChannelShape s.cfg s.ds.right

/-- It looks at the configuration, the cascade and the modulator alone. -/
theorem Shaped.congr {s t : State} (hcfg : t.cfg = s.cfg) (hos : ∀ st, t.os.get st = s.os.get st) (hds : t.ds = s.ds)
    (h : Shaped s) : Shaped t := by
  simpa only [Shaped, hcfg, hos, hds] using h

/-- A footprint without the cascade and the modulator keeps it. -/
theorem Shaped.of_keeps {written : List Item} {s t : State} (hkeeps : Keeps written s t)
    (hstage : ∀ st, Item.stage st ∉ written) (hds : Item.modulator ∉ written) (h : Shaped s) : Shaped t :=
  h.congr hkeeps.configuration (fun st => hkeeps.rest _ (hstage st)) (hkeeps.rest _ hds)

/-- What a body does to other registers keeps it. -/
theorem Shaped.of_touches {written : List Item} {stream : List Emission} {draws : Nat} {s t : State}
    (htouch : Touches written stream draws s t) (hstage : ∀ st, Item.stage st ∉ written)
    (hds : Item.modulator ∉ written) (h : Shaped s) : Shaped t :=
  h.congr htouch.configuration (fun st => htouch.rest _ (hstage st)) (htouch.rest _ hds)

/-- The response changes no register. -/
theorem Shaped.respond {s : State} (h : Shaped s) (r : Reply) : Shaped (s.respond r) :=
  h.congr (by simp) (by simp) (by simp)

/-- What the shape needs of invariants (5) and (12) of R233. -/
theorem shapeParameters_of_configOk {cfg : Config} (h : configOk cfg = true) :
    (∀ st, 0 < (cfg.stage.get st).taps) ∧ 0 < cfg.intBits := by
  obtain ⟨-, -, -, -, ⟨h0, h1, h2, -⟩, -, -, -, -, -, -, ⟨hin, hint⟩, -⟩ := (configOk_iff cfg).mp h
  exact ⟨Stage.forall_iff.mpr ⟨h0, by change 0 < cfg.stage.s1.taps; omega, by change 0 < cfg.stage.s2.taps; omega⟩,
    by omega⟩

/-- A stage in its reset state. -/
theorem StageShape.zero (length : Nat) : StageShape length (FilterState.zero length) :=
  ⟨by simp [FilterState.zero], .inr rfl⟩

/-- Zero fits every integrator register. -/
theorem fitsIntegrator_zero (cfg : Config) : fitsIntegrator cfg 0 = true := by
  have : 0 < 2 ^ (cfg.intBits - 1) := Nat.two_pow_pos _
  simp only [fitsIntegrator, decide_eq_true_eq]
  omega

/-- A channel in its reset state. -/
theorem ChannelShape.zero (cfg : Config) : ChannelShape cfg (Channel.zero cfg.dsM) :=
  ⟨by simp [Channel.zero], fun v hv => by rw [List.eq_of_mem_replicate hv]; exact fitsIntegrator_zero cfg⟩

/-- A narrowed number fits the register that it is narrowed to. -/
theorem fitsIntegrator_sext {cfg : Config} (hbits : 0 < cfg.intBits) (v : Int) :
    fitsIntegrator cfg (sext cfg.intBits v) = true := by
  have hhalf : ((2 ^ cfg.intBits : Nat) : Int) = 2 * ((2 ^ (cfg.intBits - 1) : Nat) : Int) := by
    obtain ⟨n, hn⟩ : ∃ n, cfg.intBits = n + 1 := ⟨cfg.intBits - 1, by omega⟩
    rw [hn, Nat.add_sub_cancel, pow_succ]
    push_cast
    ring
  have hpos : 0 < ((2 ^ cfg.intBits : Nat) : Int) := by positivity
  have hlo := Int.emod_nonneg v hpos.ne'
  have hhi := Int.emod_lt_of_pos v hpos
  rw [fitsIntegrator, decide_eq_true_eq]
  unfold sext
  dsimp only
  split <;> constructor <;> omega

/-- The free values of a lost channel have its shape (log 1). -/
theorem freeChannel_shape {cfg : Config} (hbits : 0 < cfg.intBits) (k c : Nat) :
    ChannelShape cfg (freeChannel cfg k c) := by
  refine ⟨by simp [freeChannel], fun v hv => ?_⟩
  obtain ⟨i, -, rfl⟩ := List.mem_map.mp hv
  exact fitsIntegrator_sext hbits _

theorem Shaped.zeroStage {s : State} (h : Shaped s) (st : Stage) : Shaped (zeroStage st s) := by
  refine ⟨fun st' => ?_, h.2⟩
  by_cases hst : st' = st
  · subst hst
    simpa using StageShape.zero _
  · simpa [PerStage.get_set_other _ _ hst] using h.1 st'

theorem Shaped.zeroCascade {s : State} (h : Shaped s) : Shaped (zeroCascade s) :=
  ((h.zeroStage .s0).zeroStage .s1).zeroStage .s2

theorem Shaped.runCascade {s : State} (hok : configOk s.cfg = true) (h : Shaped s) (r : Rate) (b : Block) :
    Shaped (runCascade r b s).1 :=
  ⟨cascadeBlock_shape b (shapeParameters_of_configOk hok).1 h.1, h.2⟩

theorem Shaped.runStage {s : State} (hok : configOk s.cfg = true) (h : Shaped s) (st : Stage) (b : Block) :
    Shaped (runStage st b s).1 := by
  refine ⟨fun st' => ?_, h.2⟩
  by_cases hst : st' = st
  · subst hst
    simp only [runStage_os, PerStage.get_set_same]
    exact stageBlock_shape b ((shapeParameters_of_configOk hok).1 st') (h.1 st')
  · simpa [PerStage.get_set_other _ _ hst] using h.1 st'

theorem Shaped.zeroModulator {s : State} (h : Shaped s) : Shaped (zeroModulator s) :=
  ⟨h.1, ChannelShape.zero s.cfg, ChannelShape.zero s.cfg⟩

theorem Shaped.loseModulator {s : State} (hok : configOk s.cfg = true) (h : Shaped s) : Shaped (loseModulator s) :=
  ⟨h.1, freeChannel_shape (shapeParameters_of_configOk hok).2 _ _, freeChannel_shape (shapeParameters_of_configOk hok).2 _ _⟩

theorem Shaped.encodePair {s : State} (hok : configOk s.cfg = true) (h : Shaped s) (p : Pair) :
    Shaped (encodePair p s).2 := by
  obtain ⟨chL, wL, chR, wR, -, hL, hR, he⟩ | ⟨-, -, -, he⟩ | ⟨-, he⟩ := encodePair_cases p s <;> rw [he]
  · exact ⟨h.1, encodeChannel_shape hL h.2.1, encodeChannel_shape hR h.2.2⟩
  · exact h.loseModulator hok
  · exact h.loseModulator hok

theorem Shaped.encodeBlock {s : State} (hok : configOk s.cfg = true) (h : Shaped s) (b : Block) :
    Shaped (encodeBlock b s).2 := by
  induction b generalizing s with
  | nil => exact h
  | cons p b ih =>
    have hpair := h.encodePair hok p
    obtain ⟨k, htouch⟩ := encodePair_touches p s
    rw [Machine.encodeBlock]
    split
    case h_1 u hu => simpa only [hu] using hpair
    case h_2 w u hu =>
      rw [hu] at hpair htouch
      have hrest := ih (s := u) (by rw [htouch.configuration]; exact hok) hpair
      split
      case h_1 v hv => simpa only [hv] using hrest
      case h_2 ws v hv => simpa only [hv] using hrest

/-- The encoding of a consumer cycle and its end. -/
theorem Shaped.encodeAndFinish {s t : State} (hok : configOk s.cfg = true) (hs : Shaped s) {st : Status} {b : Block}
    (h : encodeAndFinish st b s = .next t) : Shaped t := by
  have hencoded := hs.encodeBlock hok b
  unfold Machine.encodeAndFinish at h
  split at h
  case h_1 ws u hu =>
    cases h
    rw [hu] at hencoded
    exact hencoded.of_keeps (finishEncoding_ends (Touches.refl [] u) st ws).keeps (by simp) (by simp)
  case h_2 u hu =>
    cases h
    rw [hu] at hencoded
    obtain ⟨stream, hends⟩ := finishOverflow_ends (Touches.refl [] u)
    exact hencoded.of_keeps hends.keeps (by simp) (by simp)

/-- Lines 4 and 5 of `CCY`. -/
theorem Shaped.playFrame {s t : State} (hok : configOk s.cfg = true) (hs : Shaped s) (h : playFrame s = .next t) :
    Shaped t := by
  unfold Machine.playFrame at h
  split at h
  case h_1 => cases h
  case h_2 g b u hu =>
    have htouch := dequeue_touches hu
    exact (hs.of_touches htouch (by simp) (by simp)).encodeAndFinish (by rw [htouch.configuration]; exact hok) h
  case h_3 u hu =>
    cases h
    exact (hs.of_touches (dequeue_touches hu) (by simp) (by simp)).respond _

/-- A consumer cycle. -/
theorem Shaped.execCcy {s t : State} (hok : configOk s.cfg = true) (hs : Shaped s) (h : exec .ccy s = .next t) :
    Shaped t := by
  rw [Machine.exec, Machine.execCcy] at h
  obtain ⟨-, -, h⟩ | ⟨r, rfl⟩ := State.gate_next h
  · have hrequest : Shaped (honourResetRequest s) := by
      have htake := hs.of_touches (takeResetRequest_touches s) (by simp) (by simp)
      unfold honourResetRequest
      split
      · exact htake.zeroModulator
      · exact htake
    have hcfg : configOk (honourResetRequest s).cfg = true := by
      rw [(honourResetRequest_touches s).configuration]
      exact hok
    generalize honourResetRequest s = u at h hrequest hcfg
    unfold muteAndPlay at h
    split_ifs at h
    · have henter := hrequest.of_touches (enterMute_touches u) (by simp) (by simp)
      exact Shaped.encodeAndFinish (s := Machine.zeroModulator (enterMute u)) hcfg henter.zeroModulator h
    · exact hrequest.playFrame hcfg h
    · have hleave := hrequest.of_touches (leaveMute_touches u) (by simp) (by simp)
      exact Shaped.playFrame (s := leaveMute u) hcfg hleave h
    · exact hrequest.encodeAndFinish hcfg h
  · exact hs.respond r

/-- A producer cycle. -/
theorem Shaped.execPcy {tick : Word} {raw : Block} {s t : State} (hok : configOk s.cfg = true) (hs : Shaped s)
    (h : exec (.pcy tick raw) s = .next t) : Shaped t := by
  have hsignal : Shaped (takeSignal s) := by
    obtain ⟨-, he⟩ | ⟨-, -, he⟩ | ⟨r, d, -, -, he⟩ := takeSignal_cases s <;> rw [he]
    · exact hs.of_touches (takeUpdated_touches s) (by simp) (by simp)
    · exact ((hs.of_touches (takeUpdated_touches s) (by simp) (by simp)).zeroCascade).of_touches
        (askModulatorReset_touches _) (by simp) (by simp)
    · exact (((hs.of_touches (takeUpdated_touches s) (by simp) (by simp)).zeroCascade).of_touches
        (askModulatorReset_touches _) (by simp) (by simp)).of_touches (seedFeedback_touches r d _) (by simp) (by simp)
  obtain ⟨r, he⟩ | ⟨-, r, he⟩ | ⟨-, rate, depth, -, -, he⟩ := execPcy_cases tick raw s <;> rw [he] at h
  · cases h
    exact hs.respond r
  · cases h
    exact hsignal.respond r
  · rw [processBlock_takeSignal] at h
    obtain ⟨st, u, hu, rfl⟩ := answerCycle_next h
    have hrun := hsignal.runCascade (by simpa using hok) rate (rawBlock s.cfg depth raw)
    have hupdate := hrun.of_touches (updateFeedback_touches tick s.q.total _) (by simp) (by simp)
    exact (hupdate.of_touches (enqueueCycle_touches hu) (by simp) (by simp)).respond _

/-- A whole operation keeps it, with a configuration that `INIT` accepted once the block is `READY`. -/
theorem Shaped.exec {i : Instr} {s t : State} (hready : s.life = .ready → configOk s.cfg = true) (hs : Shaped s)
    (h : exec i s = .next t) : Shaped t := by
  have hkeeps := exec_staysWithin i s t h
  obtain ⟨-, hlife⟩ | ⟨r, rfl⟩ := exec_next h
  case inr => exact hs.respond r
  have hok : i.row ≠ .init → i.row ≠ .rds → configOk s.cfg = true := fun hinit hrds =>
    hready (hlife.resolve_right fun hruns => (runsUnready_iff.mp hruns).elim hinit hrds)
  cases i
  case osr a =>
    rw [Machine.exec, execOsr] at h
    obtain ⟨-, -, h⟩ | ⟨r, rfl⟩ := State.gate_next h
    · split at h <;> cases h
      · exact hs.respond _
      · exact (hs.zeroStage _).respond _
    · exact hs.respond r
  case oss a b =>
    rw [Machine.exec, execOss] at h
    obtain ⟨-, -, h⟩ | ⟨r, rfl⟩ := State.gate_next h
    · split at h
      · cases h
        exact hs.respond _
      · split at h <;> cases h
        · exact hs.respond _
        · exact (hs.runStage (hok (by simp [Instr.row]) (by simp [Instr.row])) _ b).respond _
    · exact hs.respond r
  case osa rc b =>
    rw [Machine.exec, execOsa] at h
    obtain ⟨-, -, h⟩ | ⟨r, rfl⟩ := State.gate_next h
    · split at h
      · cases h
        exact hs.respond _
      · split at h <;> cases h
        · exact hs.respond _
        · exact (hs.runCascade (hok (by simp [Instr.row]) (by simp [Instr.row])) _ b).respond _
    · exact hs.respond r
  case osz =>
    rw [Machine.exec, execOsz] at h
    obtain ⟨-, -, h⟩ | ⟨r, rfl⟩ := State.gate_next h
    · cases h
      exact hs.zeroCascade.respond _
    · exact hs.respond r
  case dse left right =>
    have hpair := hs.encodePair (hok (by simp [Instr.row]) (by simp [Instr.row])) ⟨left, right⟩
    rw [Machine.exec, execDse] at h
    obtain ⟨-, -, h⟩ | ⟨r, rfl⟩ := State.gate_next h
    · split at h <;> rename_i hu <;> rw [hu] at hpair <;> cases h <;> exact hpair.respond _
    · exact hs.respond r
  case dsz =>
    rw [Machine.exec, execDsz] at h
    obtain ⟨-, -, h⟩ | ⟨r, rfl⟩ := State.gate_next h
    · cases h
      exact hs.zeroModulator.respond _
    · exact hs.respond r
  case pcy tick raw => exact hs.execPcy (hok (by simp [Instr.row]) (by simp [Instr.row])) h
  case ccy => exact hs.execCcy (hok (by simp [Instr.row]) (by simp [Instr.row])) h
  all_goals exact hs.of_keeps hkeeps (by simp [mayWrite]) (by simp [mayWrite])

/-- Line 5 of `CCY`, one pair or the end. -/
theorem Shaped.stepEncode {todo : Block} {words : List (Word × Word)} {st : Status} {s t : State}
    (hok : configOk s.cfg = true) (hs : Shaped s) (h : stepEncode todo words st s = .next t) : Shaped t := by
  cases todo with
  | nil =>
    cases h
    have hland : Shaped s.land := hs.congr (by simp) (by simp) (by simp)
    exact hland.of_keeps (finishEncoding_ends (Touches.refl [] s.land) st words).keeps (by simp) (by simp)
  | cons p rest =>
    have hpair := hs.encodePair hok p
    rw [Machine.stepEncode] at h
    split at h
    case h_1 w u hu =>
      rw [hu] at hpair
      cases h
      exact hpair.congr (by simp) (by simp) (by simp)
    case h_2 u hu =>
      rw [hu] at hpair
      cases h
      have hland : Shaped u.land := hpair.congr (by simp) (by simp) (by simp)
      obtain ⟨stream, hends⟩ := finishOverflow_ends (Touches.refl [] u.land)
      exact hland.of_keeps hends.keeps (by simp) (by simp)

/-- The next step of an operation in flight keeps it. -/
theorem Shaped.advance {f : Flight} {s t : State} (hok : configOk s.cfg = true) (hs : Shaped s)
    (h : advance f s = .next t) : Shaped t := by
  have hkeeps := advance_staysWithin f s t h
  cases f
  case pcyZero tick raw =>
    cases h
    exact hs.zeroCascade.congr (by simp) (by simp) (by simp)
  case pcyOversample tick rate x occ0 =>
    cases h
    exact (hs.runCascade hok rate x).congr (by simp [oversampleForQueue]) (by simp [oversampleForQueue])
      (by simp [oversampleForQueue])
  case ccyZero =>
    cases h
    exact hs.zeroModulator.congr (by simp) (by simp) (by simp)
  case ccyEntryZero =>
    cases h
    exact hs.zeroModulator.congr (by simp) (by simp) (by simp)
  case ccyEncode todo words st => exact hs.stepEncode hok h
  all_goals exact hs.of_keeps hkeeps (by simp [Flight.mayWrite]) (by simp [Flight.mayWrite])

/-- Settles O29: an operation in flight runs in a `READY` block, so with a configuration that `INIT` accepted. -/
theorem shapeInvKept : Obligations.ShapeInvKept := by
  intro s t ⟨hlife, hs⟩ h
  refine ⟨hlife.step h, step_keeps_of (Inv := Shaped) (fun u v hcfg hsame hu => ?_)
    (fun i u v hl hc hu hv => hu.exec (by rw [hl, hc]; exact hlife.1) hv)
    (fun f u v _ hc hflight hu hv => ?_) hs h⟩
  · exact hu.congr hcfg (fun st => hsame (.stage st) (by simp)) (hsame .modulator (by simp))
  · obtain ⟨x, hx⟩ := hflight
    exact hu.advance (by rw [hc]; exact hlife.1 (hlife.ready_of_flight hx)) hv

/-! The feedback band (R44, R204). -/

/-- The part of the feedback invariant that speaks of the registers. -/
def Banded (s : State) : Prop :=
  s.fb.value < 4294967296 ∧ s.fb.nominal < 4294967296 ∧ s.fb.min < 4294967296 ∧ s.fb.max < 4294967296 ∧
  s.fb.target < 4294967296 ∧
  (s.fb.configured = true →
    s.fb.min ≤ s.fb.value ∧ s.fb.value ≤ s.fb.max ∧
    s.fb.min = s.fb.nominal - feedbackBand s.cfg s.fb.nominal ∧
    s.fb.max = s.fb.nominal + feedbackBand s.cfg s.fb.nominal)

/-- It looks at the configuration and the feedback registers alone, and not at the last tick count. -/
theorem Banded.congr {s t : State} (hcfg : t.cfg = s.cfg) (hvalue : Item.feedbackValue.same s t)
    (hbounds : Item.feedbackBounds.same s t) (h : Banded s) : Banded t := by
  simp only [Item.same] at hvalue hbounds
  obtain ⟨hnominal, hmin, hmax, htarget, hconf⟩ := hbounds
  simpa only [Banded, hcfg, hvalue, hnominal, hmin, hmax, htarget, hconf] using h

/-- A footprint without the value and the bounds keeps it. -/
theorem Banded.of_keeps {written : List Item} {s t : State} (hkeeps : Keeps written s t)
    (hvalue : Item.feedbackValue ∉ written) (hbounds : Item.feedbackBounds ∉ written) (h : Banded s) : Banded t :=
  h.congr hkeeps.configuration (hkeeps.rest _ hvalue) (hkeeps.rest _ hbounds)

/-- What a body does to other registers keeps it. -/
theorem Banded.of_touches {written : List Item} {stream : List Emission} {draws : Nat} {s t : State}
    (htouch : Touches written stream draws s t) (hvalue : Item.feedbackValue ∉ written)
    (hbounds : Item.feedbackBounds ∉ written) (h : Banded s) : Banded t :=
  h.congr htouch.configuration (htouch.rest _ hvalue) (htouch.rest _ hbounds)

/-- The response changes no register. -/
theorem Banded.respond {s : State} (h : Banded s) (r : Reply) : Banded (s.respond r) :=
  h.congr (by simp) (by simp [Item.same]) (by simp [Item.same])

/-- What the controller needs of invariant (16) of R233. -/
theorem feedbackParameters_of_configOk {cfg : Config} (h : configOk cfg = true) (r : Rate) (d : Depth) :
    cfg.fbTarget.get r < 4294967296 ∧
    (cfg.nominal.get r).get d + feedbackBand cfg ((cfg.nominal.get r).get d) < 4294967296 := by
  obtain ⟨-, -, -, -, -, -, -, -, -, -, -, -, -, -, -, hfits⟩ := (configOk_iff cfg).mp h
  exact ⟨(hfits r).1, (hfits r).2 d⟩

/-- `FBC` seeds the value in the middle of its band. -/
theorem Banded.seedFeedback {s : State} (hok : configOk s.cfg = true) (r : Rate) (d : Depth) :
    Banded (seedFeedback r d s) := by
  obtain ⟨htarget, hmax⟩ := feedbackParameters_of_configOk hok r d
  unfold Banded Machine.seedFeedback
  dsimp only
  refine ⟨?_, ?_, ?_, hmax, htarget, fun _ => ⟨?_, ?_, rfl, rfl⟩⟩ <;> omega

/-- The body of `FBC`. -/
theorem Banded.configureFeedback {s : State} (hok : configOk s.cfg = true) (h : Banded s) :
    Banded (configureFeedback s).2 := by
  obtain ⟨-, he⟩ | ⟨r, d, -, he⟩ := configureFeedback_cases s <;> rw [he]
  · exact h
  · exact Banded.seedFeedback hok r d

/-- The corrected value lies between the bounds (R202). -/
theorem correctedValue_bounds {s : State} (h : s.fb.min ≤ s.fb.max) (r : Rate) (total : Nat) :
    s.fb.min ≤ correctedValue r total s ∧ correctedValue r total s ≤ s.fb.max := by
  obtain ⟨hlo, hhi⟩ := clamp_bounds ((s.fb.nominal : Int) + feedbackError r total s * (s.cfg.fbErrScale : Int))
    (Int.ofNat_le.mpr h)
  rw [correctedValue]
  omega

/-- The body of `FBU`. -/
theorem Banded.updateFeedback {s : State} (h : Banded s) (tick : Word) (total : Nat) :
    Banded (updateFeedback tick total s).2 := by
  obtain ⟨-, he⟩ | ⟨r, d, -, -, -, he⟩ | ⟨r, d, -, hconf, -, he⟩ := updateFeedback_cases tick total s <;> rw [he]
  · exact h
  · exact h
  · obtain ⟨-, hnominal, hmin, hmax, htarget, hband⟩ := h
    obtain ⟨hlo, hhi, heqmin, heqmax⟩ := hband hconf
    obtain ⟨hlo', hhi'⟩ := correctedValue_bounds (hlo.trans hhi) r total
    exact ⟨hhi'.trans_lt hmax, hnominal, hmin, hmax, htarget, fun _ => ⟨hlo', hhi', heqmin, heqmax⟩⟩

/-- A producer cycle. -/
theorem Banded.execPcy {tick : Word} {raw : Block} {s t : State} (hok : configOk s.cfg = true) (hs : Banded s)
    (h : exec (.pcy tick raw) s = .next t) : Banded t := by
  have hsignal : Banded (takeSignal s) := by
    obtain ⟨-, he⟩ | ⟨-, -, he⟩ | ⟨r, d, -, -, he⟩ := takeSignal_cases s <;> rw [he]
    · exact hs
    · exact hs
    · exact Banded.seedFeedback hok r d
  obtain ⟨r, he⟩ | ⟨-, r, he⟩ | ⟨-, rate, depth, -, -, he⟩ := execPcy_cases tick raw s <;> rw [he] at h
  · cases h
    exact hs.respond r
  · cases h
    exact hsignal.respond r
  · rw [processBlock_takeSignal] at h
    obtain ⟨st, u, hu, rfl⟩ := answerCycle_next h
    have hrun : Banded (Machine.runCascade rate (rawBlock s.cfg depth raw) (takeSignal s)).1 := hsignal
    exact ((hrun.updateFeedback tick s.q.total).of_touches (enqueueCycle_touches hu) (by simp) (by simp)).respond _

/-- A whole operation keeps it, with a configuration that `INIT` accepted once the block is `READY`. -/
theorem Banded.exec {i : Instr} {s t : State} (hready : s.life = .ready → configOk s.cfg = true) (hs : Banded s)
    (h : exec i s = .next t) : Banded t := by
  have hkeeps := exec_staysWithin i s t h
  obtain ⟨-, hlife⟩ | ⟨r, rfl⟩ := exec_next h
  case inr => exact hs.respond r
  have hok : runsUnready i.row = false → configOk s.cfg = true := fun hneeds =>
    hready (hlife.resolve_right (by simp [hneeds]))
  cases i
  case fbc =>
    rw [Machine.exec, execFbc] at h
    obtain ⟨-, -, h⟩ | ⟨r, rfl⟩ := State.gate_next h
    · cases h
      exact (hs.configureFeedback (hok rfl)).respond _
    · exact hs.respond r
  case fbu tick =>
    rw [Machine.exec, execFbu] at h
    obtain ⟨-, -, h⟩ | ⟨r, rfl⟩ := State.gate_next h
    · cases h
      exact (hs.updateFeedback tick _).respond _
    · exact hs.respond r
  case pcy tick raw => exact hs.execPcy (hok rfl) h
  all_goals exact hs.of_keeps hkeeps (by simp [mayWrite, stageItems]) (by simp [mayWrite, stageItems])

/-- A change of the issuing port changes no register. -/
theorem Banded.setPort {s : State} (h : Banded s) (x : Port) (v : PortState) : Banded (s.setPort x v) :=
  h.congr (by simp) (by simp [Item.same]) (by simp [Item.same])

/-- The next step of an operation in flight keeps it. -/
theorem Banded.advance {f : Flight} {s t : State} (hok : configOk s.cfg = true) (hs : Banded s)
    (h : advance f s = .next t) : Banded t := by
  have hkeeps := advance_staysWithin f s t h
  cases f
  case fbuRest tick total =>
    cases h
    exact ((hs.setPort s.issuer _).updateFeedback tick total).respond _
  case pcyFeedback tick raw =>
    cases h
    exact (hs.configureFeedback hok).setPort _ _
  case pcyUpdate tick rate y total =>
    have hupdate := hs.updateFeedback tick total
    rw [Machine.advance, stepCycleUpdate] at h
    split at h <;> cases h
    · exact (hupdate.setPort _ _).respond _
    · exact hupdate.setPort _ _
  all_goals exact hs.of_keeps hkeeps (by simp [Flight.mayWrite]) (by simp [Flight.mayWrite])

/-- Settles O48: a seed stands in the middle of its band, an update is clamped to it. -/
theorem feedbackInvKept : Obligations.FeedbackInvKept := by
  intro s t ⟨hlife, hs⟩ h
  refine ⟨hlife.step h, step_keeps_of (Inv := Banded) (fun u v hcfg hsame hu => ?_)
    (fun i u v hl hc hu hv => hu.exec (by rw [hl, hc]; exact hlife.1) hv)
    (fun f u v _ hc hflight hu hv => ?_) hs h⟩
  · exact hu.congr hcfg (hsame _ (by simp)) (hsame _ (by simp))
  · obtain ⟨x, hx⟩ := hflight
    exact hu.advance (by rw [hc]; exact hlife.1 (hlife.ready_of_flight hx)) hv

/-! Reset (R290). -/

/-- Before the block is `READY` with nothing in flight. -/
theorem lifecycleInv_resetWith (cfg : Config) : LifecycleInv (State.resetWith cfg) :=
  ⟨(nomatch ·), fun _ => ⟨rfl, rfl, rfl⟩⟩

/-- The registers of a reset block have their shape. -/
theorem shaped_resetWith (cfg : Config) : Shaped (State.resetWith cfg) :=
  ⟨fun st => resetWith_os_get cfg st ▸ StageShape.zero _, ChannelShape.zero cfg, ChannelShape.zero cfg⟩

/-- The feedback registers of a reset block are 0. -/
theorem banded_resetWith (cfg : Config) : Banded (State.resetWith cfg) :=
  ⟨Nat.two_pow_pos 32, Nat.two_pow_pos 32, Nat.two_pow_pos 32, Nat.two_pow_pos 32, Nat.two_pow_pos 32, (nomatch ·)⟩

/-- The queue of a reset block is in its reset state. -/
theorem ringInv_resetWith (cfg : Config) : RingInv (State.resetWith cfg) :=
  ⟨lifecycleInv_resetWith cfg, rfl, Memory.wf_nil, (nomatch ·), fun _ => rfl⟩

/-- Settles O10: each invariant is read off the reset state, each literal off the device's configuration. -/
theorem invariantsHoldAtReset : Obligations.InvariantsHoldAtReset :=
  ⟨fun cfg => ⟨lifecycleInv_resetWith cfg, (nomatch ·), ⟨lifecycleInv_resetWith cfg, banded_resetWith cfg⟩,
      ⟨lifecycleInv_resetWith cfg, shaped_resetWith cfg⟩, ringInv_resetWith cfg, fun _ => Memory.value_of_unwritten rfl⟩,
    rfl, rfl, rfl, rfl, rfl, rfl, rfl⟩

end Sys2Proof.Machine
end

section
/-! The ring of the queue (spec/10_state.md section 6, spec/20_memory.md section 6): the ring invariant without the
operations in flight, what each change of the queue does to it, to the list of queued frames and to what the other
agent's operation in flight has established. -/

namespace Sys2Proof.Machine

/-! The ring without the operations in flight. -/

/-- The ring invariant of R37, without what the operations in flight have established. -/
structure RingCore (s : State) : Prop where
  headers : s.q.hdr.length = s.cfg.nSlots
  writeCursor : s.q.wc < s.cfg.nSlots
  readCursor : s.q.rc < s.cfg.nSlots
  occupancy : s.q.occ ≤ s.cfg.nSlots
  cursors : s.q.wc = (s.q.rc + s.q.occ) % s.cfg.nSlots
  total : s.q.total = queuedPairs s s.q.occ
  frames : ∀ k, k < s.q.occ → FrameStored s (frameSlot s k)

/-- The ring invariant has it. -/
theorem RingHolds.core {s : State} (h : RingHolds s) : RingCore s :=
  ⟨h.headers, h.writeCursor, h.readCursor, h.occupancy, h.cursors, h.total, h.frames⟩

/-- The two states have the same ring: cursors, counters, and the queued frames. -/
structure SameRing (s t : State) : Prop where
  configuration : t.cfg = s.cfg
  headers : t.q.hdr.length = s.q.hdr.length
  writeCursor : t.q.wc = s.q.wc
  readCursor : t.q.rc = s.q.rc
  occupancy : t.q.occ = s.q.occ
  total : t.q.total = s.q.total
  header : ∀ k, k < s.q.occ → t.q.header (frameSlot s k) = s.q.header (frameSlot s k)
  pairs : ∀ k, k < s.q.occ → ∀ j, j < s.cfg.frameMax → slotPair t (frameSlot s k) j = slotPair s (frameSlot s k) j

/-- The same queue is the same ring. -/
theorem SameRing.of_q {s t : State} (hcfg : t.cfg = s.cfg) (hq : t.q = s.q) : SameRing s t := by
  constructor <;> simp [hcfg, hq, slotPair]

/-- The places of the ring are the same. -/
theorem SameRing.frameSlot_eq {s t : State} (h : SameRing s t) (k : Nat) : frameSlot t k = frameSlot s k := by
  rw [frameSlot, frameSlot, h.readCursor, h.configuration]

/-- The same ring keeps the invariant. -/
theorem RingCore.of_sameRing {s t : State} (hs : RingCore s) (h : SameRing s t) : RingCore t where
  headers := by rw [h.headers, h.configuration, hs.headers]
  writeCursor := by rw [h.writeCursor, h.configuration]; exact hs.writeCursor
  readCursor := by rw [h.readCursor, h.configuration]; exact hs.readCursor
  occupancy := by rw [h.occupancy, h.configuration]; exact hs.occupancy
  cursors := by rw [h.writeCursor, h.readCursor, h.occupancy, h.configuration, hs.cursors]
  total := by
    rw [h.total, h.occupancy, hs.total]
    exact (queuedPairs_congr s.q.occ fun k hk => by rw [h.frameSlot_eq, h.header k hk]).symm
  frames k hk := by
    rw [h.occupancy] at hk
    obtain ⟨hpos, hmax, hstored⟩ := hs.frames k hk
    rw [FrameStored, h.frameSlot_eq, h.header k hk, h.configuration]
    exact ⟨hpos, hmax, fun j hj => by rw [h.pairs k hk j (hj.trans_le hmax)]; exact hstored j hj⟩

/-- The frame that slot `i` holds: its group and its pairs. -/
def frameAt (s : State) (i : Nat) : Family × List (Option Pair) :=
  ((s.q.header i).group, (List.range (s.q.header i).len).map (slotPair s i))

/-- The queue as a list of frames, slot by slot. -/
theorem frames_eq (s : State) : frames s = (List.range s.q.occ).map fun k => frameAt s (frameSlot s k) := rfl

/-- The same ring is the same list of frames. -/
theorem SameRing.frames_eq {s t : State} (h : SameRing s t) (hs : RingCore s) : frames t = frames s := by
  rw [Machine.frames_eq, Machine.frames_eq, h.occupancy]
  refine List.map_congr_left fun k hk => ?_
  rw [List.mem_range] at hk
  obtain ⟨-, hmax, -⟩ := hs.frames k hk
  rw [h.frameSlot_eq, frameAt, frameAt, h.header k hk]
  refine congrArg (Prod.mk _) (List.map_congr_left fun j hj => ?_)
  exact h.pairs k hk j ((List.mem_range.mp hj).trans_le hmax)

/-- The oldest frame's slot. -/
theorem RingCore.oldest {s : State} (h : RingCore s) (ho : 0 < s.q.occ) : FrameStored s s.q.rc := by
  rw [← frameSlot_zero h.readCursor]
  exact h.frames 0 ho

/-- The slot that the next enqueue writes follows the last queued frame. -/
theorem RingCore.frameSlot_occ {s : State} (h : RingCore s) : frameSlot s s.q.occ = s.q.wc := h.cursors.symm

/-! The slot at the write cursor. -/

/-- From `s` to `t` nothing of the queue changes but the slot at the write cursor. -/
structure SlotWritten (s t : State) : Prop where
  configuration : t.cfg = s.cfg
  headers : t.q.hdr.length = s.q.hdr.length
  writeCursor : t.q.wc = s.q.wc
  readCursor : t.q.rc = s.q.rc
  occupancy : t.q.occ = s.q.occ
  total : t.q.total = s.q.total
  header : ∀ k, k ≠ s.q.wc → t.q.header k = s.q.header k
  cells : ∀ a, (∀ j, j < s.cfg.frameMax → a ≠ slotCell s.cfg s.q.wc j) → t.q.data.read a = s.q.data.read a

/-- While there is room, that slot is no queued frame's (R74). -/
theorem SlotWritten.sameRing {s t : State} (h : SlotWritten s t) (hs : RingCore s) (hroom : s.q.occ < s.cfg.nSlots) :
    SameRing s t where
  configuration := h.configuration
  headers := h.headers
  writeCursor := h.writeCursor
  readCursor := h.readCursor
  occupancy := h.occupancy
  total := h.total
  header k hk := h.header _ (frameSlot_ne_wc hs.cursors hk hroom)
  pairs k hk j hj := by
    rw [slotPair, slotPair, h.configuration]
    exact h.cells _ fun j' hj' => slotCell_ne (frameSlot_ne_wc hs.cursors hk hroom) hj hj'

/-- Writing one cell of the slot at the write cursor. -/
theorem slotWritten_of_write {s : State} {j : Nat} (hj : j < s.cfg.frameMax) (p : Pair) :
    SlotWritten s { s with q := { s.q with data := s.q.data.write (slotCell s.cfg s.q.wc j) p } } :=
  ⟨rfl, rfl, rfl, rfl, rfl, rfl, fun _ _ => rfl, fun _ ha => Memory.read_write_other _ _ _ _ (ha j hj)⟩

/-- Writing the header of the slot at the write cursor. -/
theorem slotWritten_of_header (g : Family) (n : Nat) (s : State) : SlotWritten s (writeHeader g n s) :=
  ⟨rfl, by simp, rfl, rfl, rfl, rfl, fun _ hk => Queue.header_set_other s.q _ hk, fun _ _ => rfl⟩

/-- One write of the slot after another. -/
theorem SlotWritten.trans {s t u : State} (h : SlotWritten s t) (h' : SlotWritten t u) : SlotWritten s u where
  configuration := h'.configuration.trans h.configuration
  headers := h'.headers.trans h.headers
  writeCursor := h'.writeCursor.trans h.writeCursor
  readCursor := h'.readCursor.trans h.readCursor
  occupancy := h'.occupancy.trans h.occupancy
  total := h'.total.trans h.total
  header k hk := (h'.header k (by rwa [h.writeCursor])).trans (h.header k hk)
  cells a ha := (h'.cells a (by rwa [h.configuration, h.writeCursor])).trans (h.cells a ha)

/-- Writing a block that fits into the slot at the write cursor. -/
theorem slotWritten_of_block {s : State} {b : Block} {m : Memory} (hb : b.length ≤ s.cfg.frameMax)
    (h : slotWriteBlock s.cfg s.q.data s.q.wc 0 b = .ok m) :
    SlotWritten s { s with q := { s.q with data := m } } := by
  refine ⟨rfl, rfl, rfl, rfl, rfl, rfl, fun _ _ => rfl, fun a ha => (slotWriteBlock_read b h).2 a fun k hk => ?_⟩
  rw [Nat.zero_add]
  exact ha k (hk.trans_le hb)

/-! A whole block in the slot at the write cursor. -/

/-- The slot at the write cursor holds a block and its header, ready for the commit. -/
def BlockStored (s : State) (g : Family) (b : Block) : Prop :=
  b ≠ [] ∧ b.length ≤ s.cfg.frameMax ∧ s.q.occ < s.cfg.nSlots ∧ PrefixStored s s.q.wc b b.length ∧
  s.q.header s.q.wc = ⟨b.length, g⟩

/-- The frame in that slot. -/
theorem BlockStored.frameAt_eq {s : State} {g : Family} {b : Block} (h : BlockStored s g b) :
    frameAt s s.q.wc = (g, b.map some) := by
  obtain ⟨-, -, -, hpairs, hheader⟩ := h
  rw [frameAt, hheader]
  refine congrArg (Prod.mk g) (List.ext_getElem (by simp) fun j hj hj' => ?_)
  have hlt : j < b.length := by simpa using hj
  simpa [hlt] using hpairs j hlt

/-- The commit advances the write cursor past the places that were queued. -/
theorem frameSlot_commitEnqueue (n : Nat) (s : State) (k : Nat) : frameSlot (commitEnqueue n s) k = frameSlot s k := rfl

/-- The commit of a stored block keeps the ring invariant. -/
theorem RingCore.commitEnqueue {s : State} (hs : RingCore s) {g : Family} {b : Block} (h : BlockStored s g b) :
    RingCore (commitEnqueue b.length s) := by
  obtain ⟨hne, hmax, hroom, hpairs, hheader⟩ := h
  have hlen : 0 < b.length := List.length_pos_iff.mpr hne
  have hslots : 0 < s.cfg.nSlots := by omega
  refine ⟨hs.headers, Nat.mod_lt _ hslots, hs.readCursor, hroom, ?_, ?_, fun k hk => ?_⟩
  · simp only [commitEnqueue_q, commitEnqueue_cfg]
    rw [hs.cursors, Nat.mod_add_mod, Nat.add_assoc]
  · simp only [commitEnqueue_q, queuedPairs, frameSlot_commitEnqueue, hs.frameSlot_occ]
    rw [hs.total, queuedPairs_congr (s := s) (t := Machine.commitEnqueue b.length s) s.q.occ fun k _ => rfl]
    exact congrArg (queuedPairs s s.q.occ + ·) (congrArg SlotHeader.len hheader).symm
  · rw [frameSlot_commitEnqueue]
    obtain hk | rfl := Nat.lt_succ_iff_lt_or_eq.mp (show k < s.q.occ + 1 from hk)
    · exact hs.frames k hk
    · rw [hs.frameSlot_occ]
      have hstored : (s.q.header s.q.wc).len = b.length := congrArg SlotHeader.len hheader
      refine ⟨show 1 ≤ (s.q.header s.q.wc).len by omega, show (s.q.header s.q.wc).len ≤ s.cfg.frameMax by omega,
        fun j hj => ?_⟩
      have hj' : j < b.length := hstored ▸ hj
      have hpair : slotPair (Machine.commitEnqueue b.length s) s.q.wc j = b[j]? := hpairs j hj'
      rw [hpair]
      simp [hj']

/-- The commit appends the block to the list of frames. -/
theorem frames_commitEnqueue {s : State} (hs : RingCore s) {g : Family} {b : Block} (h : BlockStored s g b) :
    frames (commitEnqueue b.length s) = frames s ++ [(g, b.map some)] := by
  rw [frames_eq, frames_eq, commitEnqueue_q]
  dsimp only
  rw [List.range_succ, List.map_append, List.map_singleton, frameSlot_commitEnqueue, hs.frameSlot_occ, ← h.frameAt_eq]
  rfl

/-! The release of the oldest frame. -/

/-- The next place of the ring is the first after the release. -/
theorem frameSlot_commitDequeue (n : Nat) (s : State) (k : Nat) :
    frameSlot (commitDequeue n s) k = frameSlot s (k + 1) := by
  simp only [frameSlot, commitDequeue_q, commitDequeue_cfg]
  rw [Nat.mod_add_mod, Nat.add_assoc, Nat.add_comm 1 k]

/-- The release keeps the ring invariant. -/
theorem RingCore.commitDequeue {s : State} (hs : RingCore s) (ho : 0 < s.q.occ) {n : Nat}
    (hn : (s.q.header s.q.rc).len = n) : RingCore (commitDequeue n s) := by
  obtain ⟨m, hm⟩ : ∃ m, s.q.occ = m + 1 := ⟨s.q.occ - 1, by omega⟩
  have hslots : 0 < s.cfg.nSlots := by have := hs.writeCursor; omega
  have hocc := hs.occupancy
  refine ⟨hs.headers, hs.writeCursor, Nat.mod_lt _ hslots, ?_, ?_, ?_, fun k hk => ?_⟩
  · simp only [commitDequeue_q, commitDequeue_cfg]
    omega
  · simp only [commitDequeue_q, commitDequeue_cfg]
    rw [hs.cursors, Nat.mod_add_mod, hm, Nat.add_sub_cancel, Nat.add_assoc, Nat.add_comm 1 m]
  · have hsum := queuedPairs_succ s (Machine.commitDequeue n s) m fun k _ => by rw [frameSlot_commitDequeue]; rfl
    rw [frameSlot_zero hs.readCursor, hn] at hsum
    simp only [commitDequeue_q, hm, Nat.add_sub_cancel]
    rw [hs.total, hm, hsum, Nat.add_sub_cancel_left]
  · rw [frameSlot_commitDequeue]
    have hk' : k < s.q.occ - 1 := hk
    exact hs.frames (k + 1) (by omega)

/-- The release drops the first of the list of frames. -/
theorem frames_commitDequeue {s : State} (hs : RingCore s) (ho : 0 < s.q.occ) (n : Nat) :
    frames s = frameAt s s.q.rc :: frames (commitDequeue n s) := by
  obtain ⟨m, hm⟩ : ∃ m, s.q.occ = m + 1 := ⟨s.q.occ - 1, by omega⟩
  rw [frames_eq, frames_eq, commitDequeue_q]
  dsimp only
  rw [hm, Nat.add_sub_cancel, List.range_succ_eq_map, List.map_cons, List.map_map, frameSlot_zero hs.readCursor]
  refine congrArg (List.cons _) (List.map_congr_left fun k _ => ?_)
  rw [frameSlot_commitDequeue]
  rfl

/-- The frame that a dequeue has copied out of the slot at the read cursor. -/
theorem frameAt_of_read {s : State} {g : Family} {b : Block} (hheader : s.q.header s.q.rc = ⟨b.length, g⟩)
    (hpairs : PrefixStored s s.q.rc b b.length) : frameAt s s.q.rc = (g, b.map some) := by
  rw [frameAt, hheader]
  refine congrArg (Prod.mk g) (List.ext_getElem (by simp) fun j hj hj' => ?_)
  have hlt : j < b.length := by simpa using hj
  simpa [hlt] using hpairs j hlt

/-! The two resets of the queue. -/

/-- An empty ring. -/
theorem RingCore.of_empty {s : State} (headers : s.q.hdr.length = s.cfg.nSlots) (hwc : s.q.wc < s.cfg.nSlots)
    (hrc : s.q.rc = s.q.wc) (hocc : s.q.occ = 0) (htotal : s.q.total = 0) : RingCore s where
  headers := headers
  writeCursor := hwc
  readCursor := by rw [hrc]; exact hwc
  occupancy := by rw [hocc]; exact Nat.zero_le _
  cursors := by rw [hocc, hrc, Nat.add_zero, Nat.mod_eq_of_lt hwc]
  total := by rw [htotal, hocc]; rfl
  frames k hk := by rw [hocc] at hk; exact absurd hk (Nat.not_lt_zero k)

/-- `QRS` empties the ring. -/
theorem RingCore.resetQueue {s : State} (hs : RingCore s) : RingCore (resetQueue s) :=
  .of_empty (by simpa using hs.headers) (Nat.zero_lt_of_lt hs.writeCursor) rfl rfl rfl

/-- Mute entry empties the ring at the write cursor. -/
theorem RingCore.enterMute {s : State} (hs : RingCore s) : RingCore (enterMute s) :=
  .of_empty hs.headers hs.writeCursor rfl rfl rfl

/-- An empty queue is an empty list. -/
theorem frames_of_empty {s : State} (h : s.q.occ = 0) : frames s = [] := by
  rw [frames_eq, h]
  rfl

/-- The queue of a reset block that `INIT` accepts is an empty ring. -/
theorem RingCore.of_reset {s : State} (hq : s.q = Queue.atReset s.cfg) (hslots : 0 < s.cfg.nSlots) : RingCore s :=
  .of_empty (by simp [hq, Queue.atReset]) (by rw [hq]; exact hslots) (by rw [hq]; rfl) (by rw [hq]; rfl)
    (by rw [hq]; rfl)

end Sys2Proof.Machine
end

section
/-! The ring invariant over every step of every interleaving (spec/20_memory.md R72 to R78): what each agent's steps
leave to the other, and the statements of R37, R60, R74, R165 and R305. -/

namespace Sys2Proof.Machine

/-! What the operations in flight have established. -/

/-- Another slot's change leaves what a consumer's operation has established. -/
theorem ConsumerFlight.of_sameRing {s t : State} {f : Flight} (hs : RingCore s) (h : SameRing s t)
    (hf : ConsumerFlight s f) : ConsumerFlight t f := by
  have hheader (ho : 0 < s.q.occ) : t.q.header t.q.rc = s.q.header s.q.rc := by
    rw [h.readCursor, ← frameSlot_zero hs.readCursor, h.header 0 ho]
  cases f <;> simp only [ConsumerFlight] at hf ⊢
  case deqHeader caller => rwa [h.occupancy]
  case deqRead caller g n got =>
    obtain ⟨ho, hn, hlen, hpairs⟩ := hf
    have hmax : n ≤ s.cfg.frameMax := by simpa [hn] using (hs.oldest ho).2.1
    refine ⟨by rwa [h.occupancy], (hheader ho).trans hn, hlen, fun j hj => ?_⟩
    have hsame := h.pairs 0 ho j (by omega)
    rw [frameSlot_zero hs.readCursor] at hsame
    rw [h.readCursor, hsame, hpairs j hj]

/-- A commit of the producer leaves it. -/
theorem ConsumerFlight.commitEnqueue {s : State} {f : Flight} (hf : ConsumerFlight s f) (n : Nat) :
    ConsumerFlight (commitEnqueue n s) f := by
  cases f <;> simp only [ConsumerFlight] at hf ⊢
  case deqHeader caller => exact Nat.succ_pos _
  case deqRead caller g n got => exact ⟨Nat.succ_pos _, hf.2⟩

/-- What the consumer does to its cursor and the counters leaves what a producer's operation has established. -/
theorem ProducerFlight.of_release {s t : State} {f : Flight} (hcfg : t.cfg = s.cfg) (hhdr : t.q.hdr = s.q.hdr)
    (hdata : t.q.data = s.q.data) (hwc : t.q.wc = s.q.wc) (hocc : t.q.occ ≤ s.q.occ) (hf : ProducerFlight s f) :
    ProducerFlight t f := by
  have hprefix (b : Block) (n : Nat) (h : PrefixStored s s.q.wc b n) : PrefixStored t t.q.wc b n := by
    simpa only [PrefixStored, slotPair, hcfg, hdata, hwc] using h
  have hheader : t.q.header t.q.wc = s.q.header s.q.wc := by rw [Queue.header, Queue.header, hhdr, hwc]
  cases f <;> simp only [ProducerFlight] at hf ⊢
  case enqWrite caller g b j =>
    obtain ⟨hne, hmax, hj, hroom, hpairs⟩ := hf
    exact ⟨hne, by rwa [hcfg], hj, by rw [hcfg]; omega, hprefix b j hpairs⟩
  case enqCommit caller g b =>
    obtain ⟨hne, hmax, hroom, hpairs, hh⟩ := hf
    exact ⟨hne, by rwa [hcfg], by rw [hcfg]; omega, hprefix b _ hpairs, hheader.trans hh⟩

/-! The invariant as each agent finds it. -/

/-- The ring invariant as the producer finds it: all but what its own operation has established. -/
structure RingForProducer (s : State) : Prop where
  core : RingCore s
  consumer : ∀ f, s.portC.flight = some f → ConsumerFlight s f
  reader : s.portT.flight = none

/-- The ring invariant as the consumer finds it: all but what its own operation has established. -/
structure RingForConsumer (s : State) : Prop where
  core : RingCore s
  producer : ∀ f, s.portP.flight = some f → ProducerFlight s f
  reader : s.portT.flight = none

theorem RingHolds.forProducer {s : State} (h : RingHolds s) : RingForProducer s := ⟨h.core, h.consumer, h.reader⟩

theorem RingHolds.forConsumer {s : State} (h : RingHolds s) : RingForConsumer s := ⟨h.core, h.producer, h.reader⟩

/-- With what the producer's operation has established it is the whole invariant. -/
theorem RingForProducer.holds {s : State} (h : RingForProducer s)
    (hp : ∀ f, s.portP.flight = some f → ProducerFlight s f) : RingHolds s :=
  { h.core with producer := hp, consumer := h.consumer, reader := h.reader }

/-- With what the consumer's operation has established it is the whole invariant. -/
theorem RingForConsumer.holds {s : State} (h : RingForConsumer s)
    (hc : ∀ f, s.portC.flight = some f → ConsumerFlight s f) : RingHolds s :=
  { h.core with producer := h.producer, consumer := hc, reader := h.reader }

/-- What a producer's operation has established looks at the configuration and the queue alone. -/
theorem ProducerFlight.congr {s t : State} {f : Flight} (hcfg : t.cfg = s.cfg) (hq : t.q = s.q)
    (hf : ProducerFlight s f) : ProducerFlight t f :=
  hf.of_release hcfg (by rw [hq]) (by rw [hq]) (by rw [hq]) (by rw [hq])

/-- The producer leaves the ring as it is, and the other ports. -/
theorem RingForProducer.of_sameRing {s t : State} (hs : RingForProducer s) (h : SameRing s t)
    (hc : t.portC.flight = s.portC.flight) (ht : t.portT.flight = s.portT.flight) : RingForProducer t where
  core := hs.core.of_sameRing h
  consumer f hf := (hs.consumer f (hc ▸ hf)).of_sameRing hs.core h
  reader := ht.trans hs.reader

/-- The consumer leaves the queue as it is, and the other ports. -/
theorem RingForConsumer.of_q {s t : State} (hs : RingForConsumer s) (hcfg : t.cfg = s.cfg) (hq : t.q = s.q)
    (hp : t.portP.flight = s.portP.flight) (ht : t.portT.flight = s.portT.flight) : RingForConsumer t where
  core := hs.core.of_sameRing (.of_q hcfg hq)
  producer f hf := (hs.producer f (hp ▸ hf)).congr hcfg hq
  reader := ht.trans hs.reader

/-- The producer commits a stored block. -/
theorem RingForProducer.commitEnqueue {s : State} (hs : RingForProducer s) {g : Family} {b : Block}
    (h : BlockStored s g b) : RingForProducer (commitEnqueue b.length s) where
  core := hs.core.commitEnqueue h
  consumer f hf := (hs.consumer f hf).commitEnqueue b.length
  reader := hs.reader

/-- `QRS` with the consumer idle. -/
theorem RingForProducer.resetQueue {s : State} (hs : RingForProducer s) (hidle : s.portC.flight = none) :
    RingForProducer (resetQueue s) where
  core := hs.core.resetQueue
  consumer f hf := by
    have hf' : s.portC.flight = some f := hf
    simp [hidle] at hf'
  reader := hs.reader

/-- The consumer releases the oldest frame. -/
theorem RingForConsumer.commitDequeue {s : State} (hs : RingForConsumer s) (ho : 0 < s.q.occ) {n : Nat}
    (hn : (s.q.header s.q.rc).len = n) : RingForConsumer (commitDequeue n s) where
  core := hs.core.commitDequeue ho hn
  producer f hf := ProducerFlight.of_release (s := s) rfl rfl rfl rfl (Nat.sub_le _ _) (hs.producer f hf)
  reader := hs.reader

/-- Mute entry. -/
theorem RingForConsumer.enterMute {s : State} (hs : RingForConsumer s) : RingForConsumer (enterMute s) where
  core := hs.core.enterMute
  producer f hf := ProducerFlight.of_release (s := s) rfl rfl rfl rfl (Nat.zero_le _) (hs.producer f hf)
  reader := hs.reader

/-- The producer's own port is what it leaves in flight. -/
theorem RingForProducer.setPort {s : State} (hs : RingForProducer s) (v : PortState)
    (hv : ∀ f, v.flight = some f → ProducerFlight s f) : RingHolds (s.setPort .p v) :=
  (hs.of_sameRing (t := s.setPort .p v) (.of_q rfl rfl) rfl rfl).holds fun f hf => (hv f hf).congr rfl rfl

/-- The consumer's own port is what it leaves in flight. -/
theorem RingForConsumer.setPort {s : State} (hs : RingForConsumer s) (v : PortState)
    (hv : ∀ f, v.flight = some f → ConsumerFlight s f) : RingHolds (s.setPort .c v) :=
  (hs.of_q (t := s.setPort .c v) rfl rfl rfl rfl).holds fun f hf =>
    (hv f hf).of_sameRing hs.core (.of_q rfl rfl)

/-- The producer goes on with its operation. -/
theorem RingForProducer.goOn {s t : State} {f : Flight} (hs : RingForProducer s) (hissuer : s.issuer = .p)
    (hf : ProducerFlight s f) (h : s.goOn f = .next t) : RingHolds t := by
  cases h
  rw [hissuer]
  exact hs.setPort _ fun f' hf' => by cases hf'; exact hf

/-- The consumer goes on with its operation. -/
theorem RingForConsumer.goOn {s t : State} {f : Flight} (hs : RingForConsumer s) (hissuer : s.issuer = .c)
    (hf : ConsumerFlight s f) (h : s.goOn f = .next t) : RingHolds t := by
  cases h
  rw [hissuer]
  exact hs.setPort _ fun f' hf' => by cases hf'; exact hf

/-- The producer ends its operation and answers. -/
theorem RingForProducer.land_respond {s : State} (hs : RingForProducer s) (hissuer : s.issuer = .p) (r : Reply) :
    RingHolds (s.land.respond r) := by
  rw [State.land_respond, hissuer]
  exact hs.setPort _ fun f hf => by cases hf

/-- The consumer ends its operation and answers. -/
theorem RingForConsumer.land_respond {s : State} (hs : RingForConsumer s) (hissuer : s.issuer = .c) (r : Reply) :
    RingHolds (s.land.respond r) := by
  rw [State.land_respond, hissuer]
  exact hs.setPort _ fun f hf => by cases hf

/-- The producer answers with nothing in flight. -/
theorem RingForProducer.respond {s : State} (hs : RingForProducer s) (hissuer : s.issuer = .p)
    (hidle : s.portP.flight = none) (r : Reply) : RingHolds (s.respond r) := by
  rw [State.respond, hissuer]
  refine hs.setPort _ fun f hf => ?_
  have hf' : s.portP.flight = some f := hf
  simp [hidle] at hf'

/-- The consumer answers with nothing in flight. -/
theorem RingForConsumer.respond {s : State} (hs : RingForConsumer s) (hissuer : s.issuer = .c)
    (hidle : s.portC.flight = none) (r : Reply) : RingHolds (s.respond r) := by
  rw [State.respond, hissuer]
  refine hs.setPort _ fun f hf => ?_
  have hf' : s.portC.flight = some f := hf
  simp [hidle] at hf'

/-- A step or an operation that leaves the queue and every operation in flight keeps the invariant. -/
theorem RingHolds.of_q {s t : State} (hs : RingHolds s) (hcfg : t.cfg = s.cfg) (hq : t.q = s.q)
    (hflights : ∀ x, (t.port x).flight = (s.port x).flight) : RingHolds t :=
  (hs.forProducer.of_sameRing (.of_q hcfg hq) (hflights .c) (hflights .t)).holds fun f hf =>
    (hs.producer f ((hflights .p).symm.trans hf)).congr hcfg hq

/-! What the operations do to the ring. -/

/-- A queue is its registers. -/
theorem Queue.eq_of_registers {q q' : Queue} (hhdr : q'.hdr = q.hdr) (hdata : q'.data = q.data) (hwc : q'.wc = q.wc)
    (hrc : q'.rc = q.rc) (hocc : q'.occ = q.occ) (htotal : q'.total = q.total) (hlock : q'.lock = q.lock) : q' = q := by
  cases q
  cases q'
  simp_all

/-- A footprint without the pieces of the queue leaves the queue. -/
theorem q_eq_of_rest {written : List Item} {s t : State} (h : ∀ x, x ∉ written → x.same s t)
    (hslots : Item.slots ∉ written) (hwc : Item.writeCursor ∉ written) (hrc : Item.readCursor ∉ written)
    (hocc : Item.occupancy ∉ written) (htotal : Item.total ∉ written) : t.q = s.q := by
  obtain ⟨hhdr, hdata, hlock⟩ := h .slots hslots
  exact Queue.eq_of_registers hhdr hdata (h .writeCursor hwc) (h .readCursor hrc) (h .occupancy hocc) (h .total htotal) hlock

/-- What a body does to registers outside the queue is nothing to the consumer's view of the ring. -/
theorem RingForConsumer.of_touches {written : List Item} {stream : List Emission} {draws : Nat} {s t : State}
    (hs : RingForConsumer s) (htouch : Touches written stream draws s t)
    (hslots : Item.slots ∉ written) (hwc : Item.writeCursor ∉ written) (hrc : Item.readCursor ∉ written)
    (hocc : Item.occupancy ∉ written) (htotal : Item.total ∉ written) : RingForConsumer t :=
  hs.of_q htouch.configuration (q_eq_of_rest htouch.rest hslots hwc hrc hocc htotal)
    (congrArg PortState.flight (htouch.ports .p)) (congrArg PortState.flight (htouch.ports .t))

/-- What a body does to registers outside the queue is nothing to the producer's view of the ring. -/
theorem RingForProducer.of_touches {written : List Item} {stream : List Emission} {draws : Nat} {s t : State}
    (hs : RingForProducer s) (htouch : Touches written stream draws s t)
    (hslots : Item.slots ∉ written) (hwc : Item.writeCursor ∉ written) (hrc : Item.readCursor ∉ written)
    (hocc : Item.occupancy ∉ written) (htotal : Item.total ∉ written) : RingForProducer t :=
  hs.of_sameRing (.of_q htouch.configuration (q_eq_of_rest htouch.rest hslots hwc hrc hocc htotal))
    (congrArg PortState.flight (htouch.ports .c)) (congrArg PortState.flight (htouch.ports .t))

/-- With the ring invariant an enqueue refuses, or stores its block at the write cursor and commits it. -/
theorem enqueue_cases_of_ring {s : State} (hs : RingCore s) (g : Family) (b : Block) :
    (∃ st, st ≠ .ok ∧ enqueue g b s = .ok (st, s)) ∨
    (∃ v, SlotWritten s v ∧ BlockStored v g b ∧ Touches [.slots] [] 0 s v ∧ s.q.occ < s.cfg.nSlots ∧
      enqueue g b s = .ok (.ok, commitEnqueue b.length v)) := by
  obtain ⟨-, he⟩ | ⟨-, -, -, he⟩ | ⟨-, hmax, -, e, hwrite, -⟩ | ⟨hne, hmax, hroom, m, hm, he⟩ := enqueue_cases g b s
  · exact .inl ⟨_, by decide, he⟩
  · exact .inl ⟨_, by decide, he⟩
  · obtain ⟨m, hm⟩ := slotWriteBlock_isOk (i := s.q.wc) (j := 0) b s.q.data
      fun k hk => inSlotSpace_of_lt (cfg := s.cfg) hs.writeCursor (by omega)
    rw [hm] at hwrite
    cases hwrite
  · refine .inr ⟨_, (slotWritten_of_block hmax hm).trans (slotWritten_of_header g b.length _),
      ⟨hne, hmax, hroom, fun j hj => ?_, ?_⟩, ((writeData_touches m s).trans (writeHeader_touches g b.length _)).mono (by simp), hroom, he⟩
    · have hread := (slotWriteBlock_read b hm).1 j hj
      rwa [Nat.zero_add] at hread
    · exact Queue.header_set_same _ _ (by rw [hs.headers]; exact hs.writeCursor)

/-- With the ring invariant a dequeue finds nothing, or copies the oldest frame out and releases it. -/
theorem dequeue_cases_of_ring {s : State} (hs : RingCore s) :
    (s.q.occ = 0 ∧ dequeue s = .ok (none, s)) ∨
    (0 < s.q.occ ∧ ∃ b : Block, s.q.header s.q.rc = ⟨b.length, (s.q.header s.q.rc).group⟩ ∧
      PrefixStored s s.q.rc b b.length ∧
      dequeue s = .ok (some ((s.q.header s.q.rc).group, b),
        setFamily (s.q.header s.q.rc).group (commitDequeue b.length s))) := by
  obtain hempty | ⟨ho, e, hread, -⟩ | ⟨ho, b, hread, he⟩ := dequeue_cases s
  · exact .inl hempty
  all_goals
    obtain ⟨hpos, hmax, hstored⟩ := hs.oldest ho
    have hpairs (j : Nat) (hj : j < (s.q.header s.q.rc).len) :
        slotPair s s.q.rc j = some (s.q.data.value (slotCell s.cfg s.q.rc j)) := by
      obtain ⟨p, hp⟩ := Option.ne_none_iff_exists'.mp (hstored j hj)
      rw [hp, Memory.value_of_read hp]
  · exfalso
    have hok : slotReadBlock s.cfg s.q.data s.q.rc 0 (s.q.header s.q.rc).len = .ok
        ((List.range (s.q.header s.q.rc).len).map fun j => s.q.data.value (slotCell s.cfg s.q.rc j)) := by
      have hblock := slotReadBlock_of_read (cfg := s.cfg) (m := s.q.data) (i := s.q.rc) (j := 0)
        ((List.range (s.q.header s.q.rc).len).map fun j => s.q.data.value (slotCell s.cfg s.q.rc j))
        (fun k hk => inSlotSpace_of_lt hs.readCursor (by simp at hk; omega)) (fun k hk => by
          have hlt : k < (s.q.header s.q.rc).len := by simpa using hk
          have hread : s.q.data.read (slotCell s.cfg s.q.rc k) = _ := hpairs k hlt
          simpa [hlt] using hread)
      simpa using hblock
    rw [hok] at hread
    cases hread
  · obtain ⟨hlen, hvalues⟩ := slotReadBlock_eq_ok _ hread
    refine .inr ⟨ho, b, by rw [hlen], fun j hj => ?_, by rw [hlen]; exact he⟩
    have hvalue := hvalues j (hlen ▸ hj)
    rw [Nat.zero_add] at hvalue
    rw [hpairs j (hlen ▸ hj), hvalue]

/-! What the operations do to the list of queued frames. -/

/-- The list looks at the configuration and the queue alone. -/
theorem frames_congr {s t : State} (hcfg : t.cfg = s.cfg) (hq : t.q = s.q) : frames t = frames s := by
  have hslot (k : Nat) : frameSlot t k = frameSlot s k := by rw [frameSlot, frameSlot, hcfg, hq]
  have hpair (i : Nat) : slotPair t i = slotPair s i := by
    funext j
    rw [slotPair, slotPair, hcfg, hq]
  simp only [frames, hslot, hpair, hq]

/-- A body that leaves the queue leaves the list. -/
theorem Touches.frames_eq {written : List Item} {stream : List Emission} {draws : Nat} {s t : State}
    (htouch : Touches written stream draws s t) (hslots : Item.slots ∉ written) (hwc : Item.writeCursor ∉ written)
    (hrc : Item.readCursor ∉ written) (hocc : Item.occupancy ∉ written) (htotal : Item.total ∉ written) :
    frames t = frames s :=
  frames_congr htouch.configuration (q_eq_of_rest htouch.rest hslots hwc hrc hocc htotal)

@[simp] theorem frames_respond (s : State) (r : Reply) : frames (s.respond r) = frames s :=
  frames_congr (by simp) (by simp)

@[simp] theorem frames_setPort (s : State) (x : Port) (v : PortState) : frames (s.setPort x v) = frames s :=
  frames_congr (by simp) (by simp)

/-- What an operation of the producer but `QRS` may do to the list. -/
def ProducerMoves (s t : State) : Prop :=
  frames t = frames s ∨ ∃ (g : Family) (b : Block), b ≠ [] ∧ frames t = frames s ++ [(g, b.map some)]

/-- What an operation of the consumer may do to the list. -/
def ConsumerMoves (s t : State) : Prop := frames t = frames s ∨ ∃ first, frames s = first :: frames t

/-- An enqueue of the producer. -/
theorem RingForProducer.enqueue {s : State} (hs : RingForProducer s) (g : Family) (b : Block) :
    ∃ st u, enqueue g b s = .ok (st, u) ∧ RingForProducer u ∧ ProducerMoves s u := by
  obtain ⟨st, -, he⟩ | ⟨v, hslot, hstored, htouch, hroom, he⟩ := enqueue_cases_of_ring hs.core g b
  · exact ⟨st, s, he, hs, .inl rfl⟩
  · have hsame := hslot.sameRing hs.core hroom
    refine ⟨.ok, _, he, (hs.of_sameRing hsame (congrArg PortState.flight (htouch.ports .c))
      (congrArg PortState.flight (htouch.ports .t))).commitEnqueue hstored, .inr ⟨g, b, hstored.1, ?_⟩⟩
    rw [frames_commitEnqueue (hs.core.of_sameRing hsame) hstored, hsame.frames_eq hs.core]

/-- A dequeue of the consumer. -/
theorem RingForConsumer.dequeue {s : State} (hs : RingForConsumer s) :
    ∃ o u, dequeue s = .ok (o, u) ∧ RingForConsumer u ∧ ConsumerMoves s u := by
  obtain ⟨-, he⟩ | ⟨ho, b, hheader, -, he⟩ := dequeue_cases_of_ring hs.core
  · exact ⟨none, s, he, hs, .inl rfl⟩
  · have hlen : (s.q.header s.q.rc).len = b.length := congrArg SlotHeader.len hheader
    refine ⟨_, _, he, (hs.commitDequeue ho hlen).of_touches (setFamily_touches _ _) (by simp) (by simp) (by simp)
      (by simp) (by simp), .inr ⟨frameAt s s.q.rc, ?_⟩⟩
    rw [frames_commitDequeue hs.core ho b.length]
    rfl

/-- The end of a consumer cycle. -/
theorem RingForConsumer.encodeAndFinish {s : State} (hs : RingForConsumer s) (hidle : s.portC.flight = none)
    (st : Status) (b : Block) :
    ∃ t, encodeAndFinish st b s = .next t ∧ RingHolds t ∧ frames t = frames s := by
  obtain ⟨t, response, stream, draws, he, hends⟩ := encodeAndFinish_next st b s
  have hq := q_eq_of_rest hends.rest (by simp) (by simp) (by simp) (by simp) (by simp)
  refine ⟨t, he, (hs.of_q hends.configuration hq (hends.flights .p) (hends.flights .t)).holds fun f hf => ?_,
    frames_congr hends.configuration hq⟩
  have hf' : s.portC.flight = some f := (hends.flights .c).symm.trans hf
  simp [hidle] at hf'

/-- Lines 4 and 5 of `CCY`. -/
theorem RingForConsumer.playFrame {s : State} (hs : RingForConsumer s) (hissuer : s.issuer = .c)
    (hidle : s.portC.flight = none) : ∃ t, playFrame s = .next t ∧ RingHolds t ∧ ConsumerMoves s t := by
  obtain ⟨o, u, hu, hring, hmoves⟩ := hs.dequeue
  have htouch := dequeue_touches hu
  have hidle' : u.portC.flight = none := (congrArg PortState.flight (htouch.ports .c)).trans hidle
  unfold Machine.playFrame
  rw [hu]
  cases o with
  | none => exact ⟨_, rfl, hring.respond (htouch.issuer.trans hissuer) hidle' _, by simpa [ConsumerMoves] using hmoves⟩
  | some frame =>
    obtain ⟨t, ht, hholds, hframes⟩ := hring.encodeAndFinish hidle' .ok frame.2
    exact ⟨t, ht, hholds, by rwa [ConsumerMoves, hframes]⟩

/-- Lines 2 to 5 of `CCY`. -/
theorem RingForConsumer.muteAndPlay {s : State} (hs : RingForConsumer s) (hissuer : s.issuer = .c)
    (hidle : s.portC.flight = none) : ∃ t, muteAndPlay s = .next t ∧ RingHolds t ∧ ConsumerMoves s t := by
  unfold Machine.muteAndPlay
  split_ifs with henter
  · have hzero := hs.enterMute.of_touches (zeroModulator_touches _) (by simp) (by simp) (by simp) (by simp) (by simp)
    obtain ⟨t, ht, hholds, hframes⟩ := hzero.encodeAndFinish hidle .qEmpty (silence s.cfg)
    exact ⟨t, ht, hholds, .inl (by rw [hframes, frames_of_empty henter.2, frames_of_empty rfl])⟩
  · exact hs.playFrame hissuer hidle
  · have hleave := hs.of_touches (leaveMute_touches s) (by simp) (by simp) (by simp) (by simp) (by simp)
    exact hleave.playFrame hissuer hidle
  · obtain ⟨t, ht, hholds, hframes⟩ := hs.encodeAndFinish hidle .qEmpty (silence s.cfg)
    exact ⟨t, ht, hholds, .inl hframes⟩

/-- Lines 5 to 9 of `PCY` (R224). -/
theorem RingForProducer.processBlock {s : State} (hs : RingForProducer s) (hissuer : s.issuer = .p)
    (hidle : s.portP.flight = none) (tick : Word) (rate : Rate) (x : Block) :
    ∃ t, processBlock tick rate x s = .next t ∧ RingHolds t ∧ ProducerMoves s t := by
  have hrun := (runCascade_touches rate x s).mono (firstStages_items_subset rate)
  have hbefore := hrun.trans (updateFeedback_touches tick s.q.total (runCascade rate x s).1)
  have hring := hs.of_touches hbefore (by simp) (by simp) (by simp) (by simp) (by simp)
  have hframes := hbefore.frames_eq (by simp) (by simp) (by simp) (by simp) (by simp)
  obtain ⟨st, u, hu, hafter, hmoves⟩ : ∃ st u, enqueueCycle rate (oversampleForQueue rate x s.q.occ s).2
      (updateFeedback tick s.q.total (runCascade rate x s).1).2 = .ok (st, u) ∧ RingForProducer u ∧
      ProducerMoves s u := by
    unfold enqueueCycle
    split
    · exact ⟨_, _, rfl, hring, .inl hframes⟩
    · obtain ⟨st, u, hu, hafter, hmoves⟩ := hring.enqueue rate.family (oversampleForQueue rate x s.q.occ s).2
      exact ⟨st, u, hu, hafter, by rwa [ProducerMoves, hframes] at hmoves⟩
  have htouch := hbefore.trans (enqueueCycle_touches hu)
  refine ⟨u.respond (Reply.plain (cycleStatus (updateFeedback tick s.q.total (runCascade rate x s).1).1 st) []), ?_,
    hafter.respond (htouch.issuer.trans hissuer) ((congrArg PortState.flight (htouch.ports .p)).trans hidle) _,
    by simpa [ProducerMoves] using hmoves⟩
  rw [processBlock_eq]
  exact congrArg (answerCycle _) hu

/-- Only the operations that touch slots, and `QRS`, can fault. -/
theorem row_of_exec_fault {i : Instr} {s : State} {e : Fault} (h : exec i s = .fault e) :
    i.row ∈ [Row.qen, .qde, .qrs, .pcy, .ccy] := by
  cases i
  case qen | qde | qrs | pcy | ccy => simp [Instr.row]
  all_goals
    simp only [exec, execFvo, execFvd, execFvt, execOsr, execOss, execOsa, execOsz, execQoc, execQts, execDse, execDsz,
      execFbc, execFbu, execFbr, execInit, execRds] at h
    obtain ⟨-, -, hbody⟩ | ⟨-, hrefused⟩ | ⟨-, -, hrefused⟩ := State.gate_cases h
    · repeat' split at hbody
      all_goals cases hbody
    · cases hrefused
    · cases hrefused

/-- What an operation of port `x` may do to the list of queued frames (R161, R162, R165). -/
def QueueMoves (x : Port) (i : Instr) (s t : State) : Prop :=
  frames t = frames s ∨ (x = .p ∧ ProducerMoves s t) ∨ (x = .p ∧ i = .qrs ∧ frames t = []) ∨
  (x = .c ∧ ConsumerMoves s t)

/-- What a whole operation of a port with nothing in flight does to the ring: it keeps the invariant, unless it is the
reset race. -/
def RunsOnRing (i : Instr) (s : State) (r : Result) : Prop :=
  (r = .fault .qrsRace ∧ s.portC.flight ≠ none) ∨ ∃ t, r = .next t ∧ RingHolds t ∧ QueueMoves s.issuer i s t

/-- A response leaves every operation in flight. -/
theorem State.respond_flight (s : State) (r : Reply) (x : Port) : ((s.respond r).port x).flight = (s.port x).flight := by
  by_cases hx : x = s.issuer
  · rw [hx, State.respond_port_issuer, PortState.respond_flight]
  · rw [State.respond_port_other s r hx]

/-- A refusal leaves the ring. -/
theorem RunsOnRing.of_respond {i : Instr} {s : State} (hs : RingHolds s) (r : Reply) :
    RunsOnRing i s (.next (s.respond r)) :=
  .inr ⟨_, rfl, hs.of_q (by simp) (by simp) (s.respond_flight r), .inl (by simp)⟩

/-- The checks before an operation refuse or let its body run on its port. -/
theorem RunsOnRing.gate {i : Instr} {s : State} {row : Row} {body : State → Result} (hs : RingHolds s)
    (h : s.issuer ∈ ports row → RunsOnRing i s (body s)) : RunsOnRing i s (s.gate row body) := by
  obtain ⟨hport, -, hbody⟩ | ⟨-, hrefused⟩ | ⟨-, -, hrefused⟩ := State.gate_cases (row := row) (body := body) rfl
  · exact hbody ▸ h hport
  · rw [hrefused]
    exact .of_respond hs _
  · rw [hrefused]
    exact .of_respond hs _

/-- The other operations write nothing of the queue (R50). -/
theorem queue_not_written {i : Instr} (hi : i.row ∉ [Row.qen, .qde, .qrs, .pcy, .ccy]) {x : Item}
    (hx : x ∈ [Item.slots, .writeCursor, .readCursor, .occupancy, .total]) : x ∉ mayWrite i := by
  simp only [List.mem_cons, List.not_mem_nil, or_false] at hx
  cases i <;> simp [Instr.row] at hi <;> obtain rfl | rfl | rfl | rfl | rfl := hx <;> simp [mayWrite, stageItems]

/-- An operation that leaves the queue leaves the ring. -/
theorem RingHolds.exec_of_untouched {i : Instr} {s : State} (hs : RingHolds s)
    (hi : i.row ∉ [Row.qen, .qde, .qrs, .pcy, .ccy]) : RunsOnRing i s (exec i s) := by
  obtain ⟨e, he⟩ | ⟨t, ht, st, outLen, words, stream, draws, hends, -, -⟩ := exec_completes i s
  · exact absurd (row_of_exec_fault he) hi
  · have hq := q_eq_of_rest hends.rest (queue_not_written hi (by simp)) (queue_not_written hi (by simp))
      (queue_not_written hi (by simp)) (queue_not_written hi (by simp)) (queue_not_written hi (by simp))
    exact .inr ⟨t, ht, hs.of_q hends.configuration hq hends.flights, .inl (frames_congr hends.configuration hq)⟩

/-- A whole operation of a port with nothing in flight keeps the ring invariant, or is the reset race (R305). -/
theorem RingHolds.exec {i : Instr} {s : State} (hs : RingHolds s) (hidle : (s.port s.issuer).flight = none) :
    RunsOnRing i s (exec i s) := by
  have idleP (hp : s.issuer = .p) : s.portP.flight = none := by rwa [hp] at hidle
  have idleC (hc : s.issuer = .c) : s.portC.flight = none := by rwa [hc] at hidle
  cases i
  case qen g b =>
    change RunsOnRing _ s (execQen g b s)
    refine .gate hs fun hport => ?_
    have hp : s.issuer = .p := by simpa [ports] using hport
    obtain ⟨st, u, hu, hring, hmoves⟩ := hs.forProducer.enqueue g b
    have htouch := enqueue_touches hu
    rw [hu]
    exact .inr ⟨_, rfl, hring.respond (htouch.issuer.trans hp)
      ((congrArg PortState.flight (htouch.ports .p)).trans (idleP hp)) _,
      .inr (.inl ⟨hp, by simpa [ProducerMoves] using hmoves⟩)⟩
  case pcy tick raw =>
    change RunsOnRing _ s (execPcy tick raw s)
    refine .gate hs fun hport => ?_
    have hp : s.issuer = .p := by simpa [ports] using hport
    have htouch := takeSignal_touches s
    have hring := hs.forProducer.of_touches htouch (by simp) (by simp) (by simp) (by simp) (by simp)
    have hframes := htouch.frames_eq (by simp) (by simp) (by simp) (by simp) (by simp)
    have hp' := htouch.issuer.trans hp
    have hidle' := (congrArg PortState.flight (htouch.ports .p)).trans (idleP hp)
    have refused (st : Status) : RunsOnRing (.pcy tick raw) s ((takeSignal s).raise st []) :=
      .inr ⟨_, rfl, hring.respond hp' hidle' _, .inl (by simpa using hframes)⟩
    unfold cycleBody
    split
    · exact refused .formatErr
    · split
      · exact refused .widthErr
      · rename_i rate depth _ _
        obtain ⟨t, ht, hholds, hmoves⟩ := hring.processBlock hp' hidle' tick rate (rawBlock (takeSignal s).cfg depth raw)
        exact .inr ⟨t, ht, hholds, .inr (.inl ⟨hp, by rwa [ProducerMoves, hframes] at hmoves⟩)⟩
  case qrs =>
    change RunsOnRing _ s (execQrs s)
    refine .gate hs fun hport => ?_
    have hp : s.issuer = .p := by simpa [ports] using hport
    cases hconsumer : s.portC.flight with
    | none =>
      simp only
      exact .inr ⟨_, rfl, (hs.forProducer.resetQueue hconsumer).respond hp (idleP hp) _,
        .inr (.inr (.inl ⟨hp, rfl, by simp [frames_of_empty]⟩))⟩
    | some f =>
      simp only
      exact .inl ⟨rfl, by simp [hconsumer]⟩
  case qde =>
    change RunsOnRing _ s (execQde s)
    refine .gate hs fun hport => ?_
    have hc : s.issuer = .c := by simpa [ports] using hport
    obtain ⟨o, u, hu, hring, hmoves⟩ := hs.forConsumer.dequeue
    have htouch := dequeue_touches hu
    have answered (r : Reply) : RunsOnRing .qde s (.next (u.respond r)) :=
      .inr ⟨_, rfl, hring.respond (htouch.issuer.trans hc)
        ((congrArg PortState.flight (htouch.ports .c)).trans (idleC hc)) r,
        .inr (.inr (.inr ⟨hc, by simpa [ConsumerMoves] using hmoves⟩))⟩
    rw [hu]
    cases o with
    | none => exact answered _
    | some frame => exact answered _
  case ccy =>
    change RunsOnRing _ s (execCcy s)
    refine .gate hs fun hport => ?_
    have hc : s.issuer = .c := by simpa [ports] using hport
    have htouch := honourResetRequest_touches s
    have hring := hs.forConsumer.of_touches htouch (by simp) (by simp) (by simp) (by simp) (by simp)
    have hframes := htouch.frames_eq (by simp) (by simp) (by simp) (by simp) (by simp)
    obtain ⟨t, ht, hholds, hmoves⟩ := hring.muteAndPlay (htouch.issuer.trans hc)
      ((congrArg PortState.flight (htouch.ports .c)).trans (idleC hc))
    exact .inr ⟨t, ht, hholds, .inr (.inr (.inr ⟨hc, by rwa [ConsumerMoves, hframes] at hmoves⟩))⟩
  all_goals exact hs.exec_of_untouched (by simp [Instr.row])

end Sys2Proof.Machine
end

section
/-! The ring invariant over the steps of an operation (spec/20_memory.md R74, R78): the first step, the next step of an
operation in flight, and every step of every interleaving. -/

namespace Sys2Proof.Machine

/-! Steps that leave the list of queued frames. -/

/-- The pieces of state that make up the queue. -/
def queueItems : List Item := [.slots, .writeCursor, .readCursor, .occupancy, .total]

/-- A body whose footprint has no piece of the queue leaves the queue. -/
theorem Touches.q_eq {written : List Item} {stream : List Emission} {draws : Nat} {s t : State}
    (h : Touches written stream draws s t) (hq : ∀ x ∈ queueItems, x ∉ written) : t.q = s.q :=
  q_eq_of_rest h.rest (hq _ (by simp [queueItems])) (hq _ (by simp [queueItems])) (hq _ (by simp [queueItems]))
    (hq _ (by simp [queueItems])) (hq _ (by simp [queueItems]))

/-- A result is a next state with the ring invariant and the same list of queued frames. -/
def LeavesFrames (s : State) (r : Result) : Prop := ∃ t, r = .next t ∧ RingHolds t ∧ frames t = frames s

/-- The producer changes registers outside the queue and goes on. -/
theorem RingForProducer.leaves_goOn {s u : State} {written : List Item} {stream : List Emission} {draws : Nat}
    (hs : RingForProducer s) (hissuer : s.issuer = .p) (h : Touches written stream draws s u)
    (hq : ∀ x ∈ queueItems, x ∉ written) {f : Flight} (hf : ProducerFlight u f) : LeavesFrames s (u.goOn f) :=
  ⟨_, rfl, (hs.of_sameRing (.of_q h.configuration (h.q_eq hq)) (congrArg PortState.flight (h.ports .c))
    (congrArg PortState.flight (h.ports .t))).goOn (h.issuer.trans hissuer) hf rfl,
    (frames_setPort u _ _).trans (frames_congr h.configuration (h.q_eq hq))⟩

/-- The producer changes registers outside the queue, ends its operation and answers. -/
theorem RingForProducer.leaves_land {s u : State} {written : List Item} {stream : List Emission} {draws : Nat}
    (hs : RingForProducer s) (hissuer : s.issuer = .p) (h : Touches written stream draws s u)
    (hq : ∀ x ∈ queueItems, x ∉ written) (r : Reply) : LeavesFrames s (.next (u.land.respond r)) :=
  ⟨_, rfl, (hs.of_sameRing (.of_q h.configuration (h.q_eq hq)) (congrArg PortState.flight (h.ports .c))
    (congrArg PortState.flight (h.ports .t))).land_respond (h.issuer.trans hissuer) r, by
    rw [State.land_respond]
    exact (frames_setPort u _ _).trans (frames_congr h.configuration (h.q_eq hq))⟩

/-- The consumer changes registers outside the queue and goes on. -/
theorem RingForConsumer.leaves_goOn {s u : State} {written : List Item} {stream : List Emission} {draws : Nat}
    (hs : RingForConsumer s) (hissuer : s.issuer = .c) (h : Touches written stream draws s u)
    (hq : ∀ x ∈ queueItems, x ∉ written) {f : Flight} (hf : ConsumerFlight u f) : LeavesFrames s (u.goOn f) :=
  ⟨_, rfl, (hs.of_q h.configuration (h.q_eq hq) (congrArg PortState.flight (h.ports .p))
    (congrArg PortState.flight (h.ports .t))).goOn (h.issuer.trans hissuer) hf rfl,
    (frames_setPort u _ _).trans (frames_congr h.configuration (h.q_eq hq))⟩

/-- The consumer changes registers outside the queue, ends its operation and answers. -/
theorem RingForConsumer.leaves_land {s u : State} {written : List Item} {stream : List Emission} {draws : Nat}
    (hs : RingForConsumer s) (hissuer : s.issuer = .c) (h : Touches written stream draws s u)
    (hq : ∀ x ∈ queueItems, x ∉ written) (r : Reply) : LeavesFrames s (.next (u.land.respond r)) :=
  ⟨_, rfl, (hs.of_q h.configuration (h.q_eq hq) (congrArg PortState.flight (h.ports .p))
    (congrArg PortState.flight (h.ports .t))).land_respond (h.issuer.trans hissuer) r, by
    rw [State.land_respond]
    exact (frames_setPort u _ _).trans (frames_congr h.configuration (h.q_eq hq))⟩

/-! The producer's operations in flight. -/

/-- Step 1 of an enqueue. -/
theorem RingForProducer.beginEnqueue {s : State} (hs : RingForProducer s) (hissuer : s.issuer = .p)
    (caller : EnqueueFor) (g : Family) (b : Block) : LeavesFrames s (beginEnqueue caller g b s) := by
  have refused (st : Status) : LeavesFrames s (endEnqueue caller st s) := by
    cases caller <;> exact hs.leaves_land hissuer (Touches.refl [] s) (by simp) _
  unfold Machine.beginEnqueue
  split_ifs with hwidth hfull
  · exact refused _
  · exact refused _
  · obtain ⟨hne, hmax⟩ := not_or.mp hwidth
    exact hs.leaves_goOn hissuer (Touches.refl [] s) (by simp)
      ⟨hne, Nat.le_of_not_lt hmax, Nat.zero_le _, Nat.lt_of_not_le hfull, fun j hj => absurd hj (Nat.not_lt_zero j)⟩

/-- A payload step of an enqueue writes the slot at the write cursor, which no queued frame has. -/
theorem RingForProducer.stepEnqueueWrite {s : State} (hs : RingForProducer s) (hissuer : s.issuer = .p)
    {caller : EnqueueFor} {g : Family} {b : Block} {j : Nat} (hf : ProducerFlight s (.enqWrite caller g b j)) :
    LeavesFrames s (stepEnqueueWrite caller g b j s) := by
  obtain ⟨hne, hmax, hj, hroom, hpairs⟩ := hf
  have goes_on {u : State} {f : Flight} (hslot : SlotWritten s u) (hissuer' : u.issuer = .p)
      (hc : u.portC = s.portC) (ht : u.portT = s.portT) (hf : ProducerFlight u f) : LeavesFrames s (u.goOn f) := by
    have hsame := hslot.sameRing hs.core hroom
    exact ⟨_, rfl, (hs.of_sameRing hsame (by rw [hc]) (by rw [ht])).goOn hissuer' hf rfl,
      (frames_setPort u _ _).trans (hsame.frames_eq hs.core)⟩
  unfold Machine.stepEnqueueWrite
  by_cases hlt : j < b.length
  · have hget : b[j]? = some b[j] := List.getElem?_eq_getElem hlt
    have hspace : inSlotSpace s.cfg (slotCell s.cfg s.q.wc j) := inSlotSpace_of_lt hs.core.writeCursor (by omega)
    rw [hget]
    dsimp only
    rw [slotWrite_of_inSlotSpace _ _ hspace]
    refine goes_on (slotWritten_of_write (by omega) b[j]) hissuer rfl rfl ⟨hne, hmax, hlt, hroom, fun k hk => ?_⟩
    by_cases hkj : k = j
    · rw [hkj, hget]
      exact Memory.read_write_same _ _ _
    · have hother : slotCell s.cfg s.q.wc k ≠ slotCell s.cfg s.q.wc j := by
        simpa [slotCell] using hkj
      exact (Memory.read_write_other _ _ _ _ hother).trans (hpairs k (by omega))
  · obtain rfl : j = b.length := by omega
    rw [List.getElem?_eq_none (Nat.le_refl _)]
    exact goes_on (slotWritten_of_header g b.length s) hissuer rfl rfl
      ⟨hne, hmax, hroom, hpairs, Queue.header_set_same _ _ (by rw [hs.core.headers]; exact hs.core.writeCursor)⟩

/-- The commit of an enqueue appends its frame. -/
theorem RingForProducer.endEnqueue {s : State} (hs : RingForProducer s) (hissuer : s.issuer = .p)
    {caller : EnqueueFor} {g : Family} {b : Block} (hf : ProducerFlight s (.enqCommit caller g b)) :
    ∃ t, Machine.endEnqueue caller .ok (Machine.commitEnqueue b.length s) = .next t ∧ RingHolds t ∧
      frames t = frames s ++ [(g, b.map some)] := by
  have hstored : BlockStored s g b := hf
  have answered (r : Reply) : ∃ t, Host.Outcome.next ((Machine.commitEnqueue b.length s).land.respond r) = (.next t : Result) ∧
      RingHolds t ∧ frames t = frames s ++ [(g, b.map some)] :=
    ⟨_, rfl, (hs.commitEnqueue hstored).land_respond hissuer r, by
      rw [State.land_respond, frames_setPort, frames_commitEnqueue hs.core hstored]⟩
  cases caller <;> exact answered _

/-- What the next step of an operation in flight does to the list of queued frames (R161, R162). -/
def Flight.FramesStep (f : Flight) (s t : State) : Prop :=
  match f with
  | .enqCommit _ g b => frames t = frames s ++ [(g, b.map some)]
  | .deqRead _ g n got =>
    (got.length < n → frames t = frames s) ∧ (n ≤ got.length → frames s = (g, got.map some) :: frames t)
  | _ => frames t = frames s

/-- The next step of the producer's operation in flight. -/
theorem RingHolds.advance_producer {s : State} {f : Flight} (hs : RingHolds s) (hissuer : s.issuer = .p)
    (hf : ProducerFlight s f) : ∃ t, advance f s = .next t ∧ RingHolds t ∧ f.FramesStep s t := by
  have hring := hs.forProducer
  cases f with
  | enqWrite caller g b j => exact hring.stepEnqueueWrite hissuer hf
  | enqCommit caller g b => exact hring.endEnqueue hissuer hf
  | fbuRest tick total =>
    have hland : RingForProducer s.land := hring.of_sameRing (.of_q (by simp) (by simp))
      (by simp [State.land, hissuer, State.setPort]) (by simp [State.land, hissuer, State.setPort])
    have htouch := updateFeedback_touches tick total s.land
    have hidle : (updateFeedback tick total s.land).2.portP.flight = none :=
      (congrArg PortState.flight (htouch.ports .p)).trans (by simp [State.land, hissuer, State.setPort, State.port])
    refine ⟨_, rfl, (hland.of_touches htouch (by simp) (by simp) (by simp) (by simp) (by simp)).respond
      (htouch.issuer.trans (by simpa using hissuer)) hidle _, ?_⟩
    change Machine.frames _ = Machine.frames s
    rw [frames_respond, htouch.frames_eq (by simp) (by simp) (by simp) (by simp) (by simp)]
    exact frames_congr (by simp) (by simp)
  | pcyZero tick raw => exact hring.leaves_goOn hissuer (zeroCascade_touches s) (by simp [queueItems]) trivial
  | pcyAsk tick raw => exact hring.leaves_goOn hissuer (askModulatorReset_touches s) (by simp [queueItems]) trivial
  | pcyFeedback tick raw => exact hring.leaves_goOn hissuer (configureFeedback_touches s) (by simp [queueItems]) trivial
  | pcyOccupancy tick raw =>
    change LeavesFrames s (stepCycleOccupancy tick raw s)
    unfold stepCycleOccupancy
    split
    · exact hring.leaves_land hissuer (Touches.refl [] s) (by simp) _
    · split
      · exact hring.leaves_land hissuer (Touches.refl [] s) (by simp) _
      · exact hring.leaves_goOn hissuer (Touches.refl [] s) (by simp) trivial
  | pcyOversample tick rate x occ0 =>
    exact hring.leaves_goOn hissuer ((runCascade_touches rate x s).mono (firstStages_items_subset rate))
      (by simp [queueItems]) trivial
  | pcyTotal tick rate y => exact hring.leaves_goOn hissuer (Touches.refl [] s) (by simp) trivial
  | pcyUpdate tick rate y total =>
    change LeavesFrames s (stepCycleUpdate tick rate y total s)
    unfold stepCycleUpdate
    dsimp only
    split
    · exact hring.leaves_land hissuer (updateFeedback_touches tick total s) (by simp [queueItems]) _
    · exact hring.leaves_goOn hissuer (updateFeedback_touches tick total s) (by simp [queueItems]) trivial
  | pcyEnqueue rate y feedback => exact hring.beginEnqueue hissuer (.cycle feedback) rate.family y
  | deqHeader | deqRead | deqFamily | ccyZero | ccyMute | ccyEntryZero | ccyDequeue | ccyEncode => exact hf.elim

/-! The consumer's operations in flight. -/

/-- Step 1 of a dequeue. -/
theorem RingForConsumer.beginDequeue {s : State} (hs : RingForConsumer s) (hissuer : s.issuer = .c)
    (caller : DequeueFor) : LeavesFrames s (beginDequeue caller s) := by
  unfold Machine.beginDequeue
  split
  · cases caller <;> exact hs.leaves_land hissuer (Touches.refl [] s) (by simp) _
  · exact hs.leaves_goOn hissuer (Touches.refl [] s) (by simp) (by simpa [ConsumerFlight, Nat.pos_iff_ne_zero])

/-- A payload step of a dequeue copies the next pair of the oldest frame, and its commit drops that frame. -/
theorem RingForConsumer.stepDequeueRead {s : State} (hs : RingForConsumer s) (hissuer : s.issuer = .c)
    {caller : DequeueFor} {g : Family} {n : Nat} {got : Block} (hf : ConsumerFlight s (.deqRead caller g n got)) :
    ∃ t, stepDequeueRead caller g n got s = .next t ∧ RingHolds t ∧
      (Flight.deqRead caller g n got).FramesStep s t := by
  obtain ⟨ho, hheader, hlen, hpairs⟩ := hf
  obtain ⟨-, hmax, hstored⟩ := hs.core.oldest ho
  rw [hheader] at hmax hstored
  unfold Machine.stepDequeueRead
  split
  · rename_i hlt
    obtain ⟨p, hp⟩ := Option.ne_none_iff_exists'.mp (hstored got.length hlt)
    rw [slotRead_of_read (inSlotSpace_of_lt hs.core.readCursor (hlt.trans_le hmax)) hp]
    have hnext : ConsumerFlight s (.deqRead caller g n (got ++ [p])) := by
      refine ⟨ho, hheader, by simpa using hlt, fun j hj => ?_⟩
      obtain hj | rfl : j < got.length ∨ j = got.length := by simp at hj; omega
      · rw [hpairs j hj, List.getElem?_append_left hj]
      · rw [hp]
        simp
    obtain ⟨t, ht, hholds, hframes⟩ := hs.leaves_goOn hissuer (Touches.refl [] s) (by simp) hnext
    exact ⟨t, ht, hholds, fun _ => hframes, fun hle => absurd hlt (Nat.not_lt.mpr hle)⟩
  · rename_i hnot
    obtain rfl : n = got.length := by omega
    refine ⟨_, rfl, (hs.commitDequeue ho (by rw [hheader])).goOn (f := .deqFamily caller g got) hissuer trivial rfl,
      fun hlt => absurd hlt hnot, fun _ => ?_⟩
    rw [frames_setPort, ← frameAt_of_read hheader hpairs]
    exact frames_commitDequeue hs.core ho _

/-- The mute transition. -/
theorem RingForConsumer.stepMute {s : State} (hs : RingForConsumer s) (hissuer : s.issuer = .c) :
    LeavesFrames s (stepMute s) := by
  unfold Machine.stepMute
  split_ifs with henter
  · refine ⟨_, rfl, hs.enterMute.goOn (f := .ccyEntryZero) hissuer trivial rfl, ?_⟩
    rw [frames_setPort, frames_of_empty henter.2, frames_of_empty rfl]
  · exact hs.leaves_goOn hissuer (Touches.refl [] s) (by simp) trivial
  · exact hs.leaves_goOn hissuer (leaveMute_touches s) (by simp [queueItems]) trivial
  · exact hs.leaves_goOn hissuer (Touches.refl [] s) (by simp) trivial

/-- One pair of a consumer cycle, or its end. -/
theorem RingForConsumer.stepEncode {s : State} (hs : RingForConsumer s) (hissuer : s.issuer = .c) (todo : Block)
    (words : List (Word × Word)) (st : Status) : LeavesFrames s (stepEncode todo words st s) := by
  have ended {written : List Item} {response : List Word} {stream : List Emission} {draws : Nat} {u t : State}
      (hring : RingForConsumer u) (hframes : frames u = frames s) (hc : u.issuer = .c)
      (hends : Ends written response stream draws u.land t) (hq : ∀ x ∈ queueItems, x ∉ written) :
      LeavesFrames s (.next t) := by
    have hsame : t.q = u.q := (q_eq_of_rest hends.rest (hq _ (by simp [queueItems])) (hq _ (by simp [queueItems]))
      (hq _ (by simp [queueItems])) (hq _ (by simp [queueItems])) (hq _ (by simp [queueItems]))).trans (by simp)
    have hcfg : t.cfg = u.cfg := hends.configuration.trans (by simp)
    have hp : t.portP.flight = u.portP.flight :=
      (hends.flights .p).trans (by simp [State.land, hc, State.setPort, State.port])
    have ht : t.portT.flight = u.portT.flight :=
      (hends.flights .t).trans (by simp [State.land, hc, State.setPort, State.port])
    have hidle : t.portC.flight = none :=
      (hends.flights .c).trans (by simp [State.land, hc, State.setPort, State.port])
    refine ⟨t, rfl, (hring.of_q hcfg hsame hp ht).holds fun f hf => ?_, (frames_congr hcfg hsame).trans hframes⟩
    simp [hidle] at hf
  cases todo with
  | nil => exact ended hs rfl hissuer (finishEncoding_ends (Touches.refl [] s.land) st words) (by simp)
  | cons p rest =>
    obtain ⟨k, hk⟩ := encodePair_touches p s
    have hafter := hs.of_touches hk (by simp) (by simp) (by simp) (by simp) (by simp)
    have hframes := hk.frames_eq (by simp) (by simp) (by simp) (by simp) (by simp)
    unfold Machine.stepEncode
    split
    case h_1 => rename_i heq; cases heq
    case h_2 p' rest' heq =>
      obtain ⟨rfl, rfl⟩ := List.cons.inj heq
      split
      case h_1 w u hu =>
        rw [hu] at hk
        exact hs.leaves_goOn hissuer hk (by simp [queueItems]) trivial
      case h_2 u hu =>
        rw [hu] at hk hafter hframes
        obtain ⟨stream, hends⟩ := finishOverflow_ends (Touches.refl [] u.land)
        exact ended hafter hframes (hk.issuer.trans hissuer) hends (by simp)

/-- The next step of the consumer's operation in flight. -/
theorem RingHolds.advance_consumer {s : State} {f : Flight} (hs : RingHolds s) (hissuer : s.issuer = .c)
    (hf : ConsumerFlight s f) : ∃ t, advance f s = .next t ∧ RingHolds t ∧ f.FramesStep s t := by
  have hring := hs.forConsumer
  cases f with
  | deqHeader caller =>
    exact hring.leaves_goOn hissuer (Touches.refl [] s) (by simp)
      ⟨hf, rfl, Nat.zero_le _, fun j hj => absurd hj (Nat.not_lt_zero j)⟩
  | deqRead caller g n got => exact hring.stepDequeueRead hissuer hf
  | deqFamily caller g b =>
    cases caller
    · exact hring.leaves_land hissuer (setFamily_touches g s) (by simp [queueItems]) _
    · exact hring.leaves_goOn hissuer (setFamily_touches g s) (by simp [queueItems]) trivial
  | ccyZero => exact hring.leaves_goOn hissuer (zeroModulator_touches s) (by simp [queueItems]) trivial
  | ccyMute => exact hring.stepMute hissuer
  | ccyEntryZero => exact hring.leaves_goOn hissuer (zeroModulator_touches s) (by simp [queueItems]) trivial
  | ccyDequeue => exact hring.beginDequeue hissuer .cycle
  | ccyEncode todo words st => exact hring.stepEncode hissuer todo words st
  | enqWrite | enqCommit | fbuRest | pcyZero | pcyAsk | pcyFeedback | pcyOccupancy | pcyOversample | pcyTotal
  | pcyUpdate | pcyEnqueue => exact hf.elim

/-! The first step of an operation. -/

/-- A refusal leaves the list. -/
theorem LeavesFrames.of_respond {s : State} (hs : RingHolds s) (r : Reply) : LeavesFrames s (.next (s.respond r)) :=
  ⟨_, rfl, hs.of_q (by simp) (by simp) (s.respond_flight r), by simp⟩

/-- The checks before an operation leave the list when its body does on its port. -/
theorem LeavesFrames.gate {s : State} {row : Row} {body : State → Result} (hs : RingHolds s)
    (h : s.issuer ∈ ports row → LeavesFrames s (body s)) : LeavesFrames s (s.gate row body) := by
  obtain ⟨hport, -, hbody⟩ | ⟨-, hrefused⟩ | ⟨-, -, hrefused⟩ := State.gate_cases (row := row) (body := body) rfl
  · exact hbody ▸ h hport
  · rw [hrefused]
    exact .of_respond hs _
  · rw [hrefused]
    exact .of_respond hs _

/-- The first step of an operation is all of it, or leaves the list. -/
theorem RingHolds.begin (i : Instr) {s : State} (hs : RingHolds s) :
    Machine.begin i s = Machine.exec i s ∨ LeavesFrames s (Machine.begin i s) := by
  cases i
  case qen g b =>
    exact .inr (.gate hs fun hport => hs.forProducer.beginEnqueue (by simpa [ports] using hport) .command g b)
  case qde => exact .inr (.gate hs fun hport => hs.forConsumer.beginDequeue (by simpa [ports] using hport) .command)
  case fbu tick =>
    refine .inr (.gate (body := fun s => s.goOn (.fbuRest tick s.q.total)) hs fun hport => ?_)
    exact hs.forProducer.leaves_goOn (f := .fbuRest tick s.q.total) (by simpa [ports] using hport) (Touches.refl [] s)
      (by simp) trivial
  case pcy tick raw =>
    refine .inr (.gate hs fun hport => ?_)
    have hp : s.issuer = .p := by simpa [ports] using hport
    unfold beginCycle
    split <;> exact hs.forProducer.leaves_goOn hp (takeUpdated_touches s) (by simp [queueItems]) trivial
  case ccy =>
    refine .inr (.gate hs fun hport => ?_)
    have hc : s.issuer = .c := by simpa [ports] using hport
    unfold beginConsume
    split <;> exact hs.forConsumer.leaves_goOn hc (takeResetRequest_touches s) (by simp [queueItems]) trivial
  all_goals exact .inl rfl

end Sys2Proof.Machine
end

section
/-! The ring invariant over every step of every interleaving, and what follows from it (spec/10_state.md section 6,
spec/20_memory.md section 6, spec/42_queue.md, R305). -/

namespace Sys2Proof.Machine

/-! A step of a block that is `READY`. -/

/-- What a step of port `x` does to the list of queued frames. -/
def StepMoves (x : Port) (s t : State) : Prop :=
  (∃ f, (s.port x).flight = some f ∧ f.FramesStep s t) ∨
  ((s.port x).flight = none ∧
    (frames t = frames s ∨ ∃ i tail, decode (s.port x).input = .ok (i, tail) ∧ QueueMoves x i s t))

/-- Reading words off a port leaves the ring. -/
theorem RingHolds.consume {s : State} (hs : RingHolds s) (ws : List Word) : RingHolds (s.consume ws) :=
  hs.of_q (by simp) (by simp) (s.consume_flight ws)

/-- The next command of a port with nothing in flight. -/
theorem RingHolds.fetch {s : State} (hs : RingHolds s) (hidle : (s.port s.issuer).flight = none) (g : Grain) :
    (fetch g s = .fault .qrsRace ∧ s.portC.flight ≠ none) ∨
    ∃ t, fetch g s = .next t ∧ RingHolds t ∧ (Machine.frames t = Machine.frames s ∨
      ∃ i tail, decode (s.port s.issuer).input = .ok (i, tail) ∧ QueueMoves s.issuer i s t) := by
  cases hdecode : decode (s.port s.issuer).input with
  | ok command =>
    obtain ⟨i, tail⟩ := command
    rw [fetch_of_decode hdecode]
    have hring := hs.consume tail
    have hframes : Machine.frames (s.consume tail) = Machine.frames s := frames_congr (by simp) (by simp)
    have hissuer : (s.consume tail).issuer = s.issuer := by simp
    have hidle' : ((s.consume tail).port (s.consume tail).issuer).flight = none := by
      rw [hissuer, State.consume_flight, hidle]
    have whole : (Machine.exec i (s.consume tail) = .fault .qrsRace ∧ s.portC.flight ≠ none) ∨
        ∃ t, Machine.exec i (s.consume tail) = .next t ∧ RingHolds t ∧ (Machine.frames t = Machine.frames s ∨
          ∃ i' tail', Except.ok (i, tail) = (Except.ok (i', tail') : Except DecodeError _) ∧ QueueMoves s.issuer i' s t) := by
      obtain ⟨hfault, hc⟩ | ⟨t, ht, hholds, hmoves⟩ := hring.exec (i := i) hidle'
      · exact .inl ⟨hfault, fun h => hc ((s.consume_flight tail .c).trans h)⟩
      · refine .inr ⟨t, ht, hholds, .inr ⟨i, tail, rfl, ?_⟩⟩
        simpa only [QueueMoves, ProducerMoves, ConsumerMoves, hframes, hissuer] using hmoves
    cases g with
    | whole => exact whole
    | single =>
      obtain hbegin | ⟨t, ht, hholds, hleaves⟩ := hring.begin i
      · rw [start, hbegin]
        exact whole
      · exact .inr ⟨t, ht, hholds, .inl (hleaves.trans hframes)⟩
  | error e =>
    have illegal : Machine.fetch g s = .next s ∨ Machine.fetch g s = (s.consume (s.port s.issuer).input.tail).raise .illegal [] := by
      cases e <;> simp [Machine.fetch, hdecode]
    obtain h | h := illegal
    · exact .inr ⟨s, h, hs, .inl rfl⟩
    · refine .inr ⟨_, h, (hs.consume _).of_q (by simp) (by simp) (State.respond_flight _ _), .inl ?_⟩
      rw [frames_respond]
      exact frames_congr (by simp) (by simp)

/-- A step of a block with the ring invariant keeps it, or is the reset race. -/
theorem RingHolds.step {s : State} {turn : Turn} {sched : List Turn} (hs : RingHolds s)
    (hsched : s.sched = turn :: sched) :
    (step s = .fault .qrsRace ∧ s.portC.flight ≠ none) ∨
    ∃ t, step s = .next t ∧ RingHolds t ∧ StepMoves turn.port s t := by
  have hturn : RingHolds (s.atTurn turn sched) := hs.of_q rfl rfl (by simp)
  cases hf : (s.port turn.port).flight with
  | none =>
    rw [step_of_idle hsched hf]
    obtain hfault | ⟨t, ht, hholds, hmoves⟩ := hturn.fetch (by simpa using hf) turn.grain
    · exact .inl hfault
    · rw [State.atTurn_issuer, State.atTurn_port] at hmoves
      exact .inr ⟨t, ht, hholds, .inr ⟨hf, hmoves⟩⟩
  | some f =>
    rw [step_of_flight hsched hf]
    obtain ⟨t, ht, hholds, hmoves⟩ : ∃ t, advance f (s.atTurn turn sched) = .next t ∧ RingHolds t ∧
        f.FramesStep (s.atTurn turn sched) t := by
      cases hport : turn.port with
      | p => exact hturn.advance_producer hport (hturn.producer f (by rwa [hport] at hf))
      | c => exact hturn.advance_consumer hport (hturn.consumer f (by rwa [hport] at hf))
      | t =>
        rw [hport] at hf
        have hnone : s.portT.flight = some f := hf
        simp [hs.reader] at hnone
    exact .inr ⟨t, ht, hholds, .inl ⟨f, hf, hmoves⟩⟩

/-! A step of a block that is not `READY`. -/

/-- An operation of a block that is not `READY` leaves the queue. -/
theorem exec_of_unready (i : Instr) {s : State} (hlife : s.life ≠ .ready) : ∃ t, exec i s = .next t ∧ t.q = s.q := by
  by_cases hrow : i.row ∈ [Row.qen, .qde, .qrs, .pcy, .ccy]
  · have hneeds : runsUnready i.row = false := by
      revert hrow
      cases i.row <;> decide
    obtain ⟨body, hexec⟩ := exec_gated i s
    obtain ⟨-, hready | hruns, -⟩ | ⟨-, hrefused⟩ | ⟨-, -, hrefused⟩ := State.gate_cases hexec.symm
    · exact absurd hready hlife
    · simp [hneeds] at hruns
    · exact ⟨_, hrefused, by simp⟩
    · exact ⟨_, hrefused, by simp⟩
  · obtain ⟨e, he⟩ | ⟨t, ht, st, outLen, words, stream, draws, hends, -, -⟩ := exec_completes i s
    · exact absurd (row_of_exec_fault he) hrow
    · exact ⟨t, ht, q_eq_of_rest hends.rest (queue_not_written hrow (by simp)) (queue_not_written hrow (by simp))
        (queue_not_written hrow (by simp)) (queue_not_written hrow (by simp)) (queue_not_written hrow (by simp))⟩

/-- A step of a block that is not `READY`, with nothing in flight, leaves the queue. -/
theorem step_of_unready {s : State} (hidle : ∀ x, (s.port x).flight = none) (hlife : s.life ≠ .ready) :
    ∃ t, step s = .next t ∧ t.q = s.q := by
  cases hsched : s.sched with
  | nil => exact ⟨s, step_of_unscheduled hsched, rfl⟩
  | cons turn sched =>
    rw [step_of_idle hsched (hidle turn.port)]
    cases hdecode : decode (s.port turn.port).input with
    | ok command =>
      obtain ⟨i, tail⟩ := command
      rw [fetch_of_decode (by simpa using hdecode)]
      have hlife' : ((s.atTurn turn sched).consume tail).life ≠ .ready := by simpa using hlife
      obtain ⟨t, ht, hq⟩ := exec_of_unready i hlife'
      have hstart : start turn.grain i ((s.atTurn turn sched).consume tail) =
          exec i ((s.atTurn turn sched).consume tail) := by
        cases turn.grain with
        | whole => rfl
        | single => exact (begin_cases i _).resolve_right fun ⟨_, hready, _⟩ => hlife' hready
      exact ⟨t, hstart.trans ht, hq.trans (by simp)⟩
    | error e =>
      cases e <;> simp only [fetch, State.atTurn_issuer, State.atTurn_port, hdecode] <;> exact ⟨_, rfl, by simp⟩

/-! The lock and the canonical slot memory. -/

/-- The lock is free and the slot memory canonical. -/
def SlotsCanonical (q : Queue) : Prop := q.lock = .free ∧ q.data.wf

/-- They are part of the slots. -/
theorem SlotsCanonical.of_same {s t : State} (hs : SlotsCanonical s.q) (h : Item.slots.same s t) :
    SlotsCanonical t.q := by
  obtain ⟨-, hdata, hlock⟩ := h
  rwa [SlotsCanonical, hdata, hlock]

/-- An enqueue keeps them. -/
theorem SlotsCanonical.enqueue {s u : State} {g : Family} {b : Block} {st : Status} (hs : SlotsCanonical s.q)
    (h : enqueue g b s = .ok (st, u)) : SlotsCanonical u.q := by
  obtain ⟨-, he⟩ | ⟨-, -, -, he⟩ | ⟨-, -, -, e, -, he⟩ | ⟨-, -, -, m, hm, he⟩ := enqueue_cases g b s <;>
    rw [he] at h <;> cases h
  · exact hs
  · exact hs
  · exact ⟨hs.1, slotWriteBlock_wf b hm hs.2⟩

/-- A whole operation keeps them. -/
theorem SlotsCanonical.exec {i : Instr} {s t : State} (hs : SlotsCanonical s.q) (h : exec i s = .next t) :
    SlotsCanonical t.q := by
  by_cases hwrites : Item.slots ∈ mayWrite i
  · cases i <;> simp [mayWrite, stageItems] at hwrites
    case qen g b =>
      rw [Machine.exec, execQen] at h
      obtain ⟨-, -, h⟩ | ⟨r, rfl⟩ := State.gate_next h
      · split at h
        case h_1 => cases h
        case h_2 st u hu =>
          cases h
          simpa using hs.enqueue hu
      · simpa using hs
    case qrs =>
      obtain ⟨-, hdata, hlock⟩ := execQrs_slots h
      rwa [SlotsCanonical, hdata, hlock]
    case pcy tick raw =>
      obtain ⟨r, he⟩ | ⟨-, r, he⟩ | ⟨-, rate, depth, -, -, he⟩ := execPcy_cases tick raw s <;> rw [he] at h
      · cases h
        simpa using hs
      · cases h
        simpa using hs
      · rw [processBlock_takeSignal] at h
        obtain ⟨st, u, hu, rfl⟩ := answerCycle_next h
        have hbefore : SlotsCanonical (beforeEnqueue tick rate (rawBlock s.cfg depth raw) s).q := by simpa using hs
        unfold enqueueCycle at hu
        split at hu
        · cases hu
          simpa using hs
        · simpa using hbefore.enqueue hu
  · exact hs.of_same ((exec_staysWithin i s t h).rest .slots hwrites)

/-- The next step of an operation in flight keeps them. -/
theorem SlotsCanonical.advance {f : Flight} {s t : State} (hs : SlotsCanonical s.q) (h : advance f s = .next t) :
    SlotsCanonical t.q := by
  by_cases hwrites : Item.slots ∈ f.mayWrite
  · cases f <;> simp [Flight.mayWrite] at hwrites
    case enqWrite caller g b j =>
      rw [Machine.advance, stepEnqueueWrite] at h
      split at h
      case h_1 p hp =>
        split at h
        case h_1 => cases h
        case h_2 m hm =>
          cases h
          obtain ⟨-, rfl⟩ := slotWrite_eq_ok hm
          simpa [SlotsCanonical] using And.intro hs.1 (Memory.write_wf _ _ p hs.2)
      case h_2 =>
        cases h
        simpa [SlotsCanonical] using hs
  · exact hs.of_same ((advance_staysWithin f s t h).rest .slots hwrites)

/-- Every step keeps them. -/
theorem SlotsCanonical.step {s t : State} (hs : SlotsCanonical s.q) (h : step s = .next t) : SlotsCanonical t.q :=
  step_keeps_of (Inv := fun u => SlotsCanonical u.q) (fun _ _ _ hrest hu => hu.of_same (hrest .slots (by simp)))
    (fun _ _ _ _ _ hu hexec => hu.exec hexec) (fun _ _ _ _ _ _ hu hadvance => hu.advance hadvance) hs h

/-! The ring invariant over every step. -/

/-- `INIT` makes the untouched queue an empty ring. -/
theorem RingHolds.of_reset {s : State} (hq : s.q = Queue.atReset s.cfg) (hconfig : configOk s.cfg = true)
    (hidle : ∀ x, (s.port x).flight = none) : RingHolds s := by
  have hslots : 0 < s.cfg.nSlots := by
    obtain ⟨⟨htwo, -⟩, -⟩ := (configOk_iff s.cfg).mp hconfig
    omega
  have hp : s.portP.flight = none := hidle .p
  have hc : s.portC.flight = none := hidle .c
  exact { RingCore.of_reset hq hslots with
    producer := fun f hf => by simp [hp] at hf
    consumer := fun f hf => by simp [hc] at hf
    reader := hidle .t }

/-- Settles O36: the agent whose turn it is keeps the ring and what the other has established; before `READY` nothing
touches the queue. -/
theorem ringInvKept : Obligations.RingInvKept := by
  intro s t ⟨hlife, hlock, hwf, hring, hreset⟩ h
  obtain ⟨hlock', hwf'⟩ := SlotsCanonical.step ⟨hlock, hwf⟩ h
  have hlife' := hlife.step h
  refine ⟨hlife', hlock', hwf', ?_⟩
  by_cases hready : s.life = .ready
  · have hstays : t.life = .ready := by
      obtain hsame | ⟨hun, -⟩ := step_life h
      · exact hsame.trans hready
      · simp [hready] at hun
    refine ⟨fun _ => ?_, fun hnot => absurd hstays hnot⟩
    cases hsched : s.sched with
    | nil =>
      rw [step_of_unscheduled hsched] at h
      cases h
      exact hring hready
    | cons turn sched =>
      obtain ⟨hfault, -⟩ | ⟨u, hu, hholds, -⟩ := (hring hready).step hsched
      · simp [hfault] at h
      · rw [hu] at h
        cases h
        exact hholds
  · have hidle := (lifecycleInv_iff.mp hlife).2 hready
    obtain ⟨u, hu, hq⟩ := step_of_unready hidle hready
    rw [hu] at h
    cases h
    have hsame : t.q = Queue.atReset t.cfg := by rw [hq, hreset hready, step_cfg hu]
    exact ⟨fun hnow => .of_reset hsame (hlife'.1 hnow) (step_flights_of_unready hidle hready hu), fun _ => hsame⟩

/-- Settles O38: on the ring a step completes or is the reset race, and the oldest frame is stored whole. -/
theorem onlyTheResetRaceFaults : Obligations.OnlyTheResetRaceFaults := by
  rintro s ⟨hlife, -, -, hring, hreset⟩
  have houtcome : (step s = .fault .qrsRace ∧ s.portC.flight ≠ none) ∨ ∃ t, step s = .next t := by
    by_cases hready : s.life = .ready
    · cases hsched : s.sched with
      | nil => exact .inr ⟨s, step_of_unscheduled hsched⟩
      | cons turn sched =>
        obtain hfault | ⟨t, ht, -⟩ := (hring hready).step hsched
        · exact .inl hfault
        · exact .inr ⟨t, ht⟩
    · obtain ⟨t, ht, -⟩ := step_of_unready ((lifecycleInv_iff.mp hlife).2 hready) hready
      exact .inr ⟨t, ht⟩
  refine ⟨fun e he => ?_, fun e he => ?_, fun ho => ?_⟩
  · obtain ⟨hfault, hc⟩ | ⟨t, ht⟩ := houtcome
    · rw [hfault] at he
      cases he
      exact ⟨rfl, hc⟩
    · simp [ht] at he
  · obtain ⟨hfault, -⟩ | ⟨t, ht⟩ := houtcome
    · simp [hfault] at he
    · simp [ht] at he
  · by_cases hready : s.life = .ready
    · exact ((hring hready).core.oldest ho).2.2
    · simp [hreset hready, Queue.atReset] at ho

end Sys2Proof.Machine
end

section
/-! The queue as a list of frames, the ownership of its registers and the single queue operations (spec/42_queue.md,
spec/20_memory.md section 6, spec/10_state.md section 1). -/

namespace Sys2Proof.Machine

/-! First in, first out. -/

/-- The producer's step moves the list as a producer may. -/
theorem Flight.FramesStep.producerMoves {s t : State} {f : Flight} (hf : ProducerFlight s f) (h : f.FramesStep s t) :
    ProducerMoves s t := by
  cases f with
  | enqCommit caller g b => exact .inr ⟨g, b, hf.1, h⟩
  | enqWrite | fbuRest | pcyZero | pcyAsk | pcyFeedback | pcyOccupancy | pcyOversample | pcyTotal | pcyUpdate
  | pcyEnqueue => exact .inl h
  | deqHeader | deqRead | deqFamily | ccyZero | ccyMute | ccyEntryZero | ccyDequeue | ccyEncode => exact hf.elim

/-- The consumer's step moves the list as a consumer may. -/
theorem Flight.FramesStep.consumerMoves {s t : State} {f : Flight} (hf : ConsumerFlight s f) (h : f.FramesStep s t) :
    ConsumerMoves s t := by
  cases f with
  | deqRead caller g n got =>
    obtain ⟨hcopy, hcommit⟩ := h
    by_cases hlt : got.length < n
    · exact .inl (hcopy hlt)
    · exact .inr ⟨_, hcommit (Nat.le_of_not_lt hlt)⟩
  | deqHeader | deqFamily | ccyZero | ccyMute | ccyEntryZero | ccyDequeue | ccyEncode => exact .inl h
  | enqWrite | enqCommit | fbuRest | pcyZero | pcyAsk | pcyFeedback | pcyOccupancy | pcyOversample | pcyTotal
  | pcyUpdate | pcyEnqueue => exact hf.elim

/-- An enqueue with room stores its block and commits it. -/
theorem enqueue_of_room {s : State} (hs : RingCore s) (g : Family) {b : Block} (hne : b ≠ [])
    (hmax : b.length ≤ s.cfg.frameMax) (hroom : s.q.occ < s.cfg.nSlots) :
    ∃ m, slotWriteBlock s.cfg s.q.data s.q.wc 0 b = .ok m ∧
      enqueue g b s =
        .ok (.ok, commitEnqueue b.length (writeHeader g b.length { s with q := { s.q with data := m } })) := by
  obtain ⟨m, hm⟩ := slotWriteBlock_isOk (cfg := s.cfg) (i := s.q.wc) (j := 0) b s.q.data
    fun k hk => inSlotSpace_of_lt hs.writeCursor (by omega)
  exact ⟨m, hm, by
    rw [enqueue, if_neg (not_or.mpr ⟨hne, Nat.not_lt.mpr hmax⟩), if_neg (Nat.not_le.mpr hroom), hm]⟩

/-- A `QEN` with room stores its block and commits it. -/
theorem exec_qen_of_ring {s : State} (hready : Ready .p s) (hs : RingHolds s) (g : Family) {b : Block} (hne : b ≠ [])
    (hmax : b.length ≤ s.cfg.frameMax) (hroom : s.q.occ < s.cfg.nSlots) :
    ∃ m, slotWriteBlock s.cfg s.q.data s.q.wc 0 b = .ok m ∧
      enqueue g b s =
        .ok (.ok, commitEnqueue b.length (writeHeader g b.length { s with q := { s.q with data := m } })) ∧
      exec (.qen g b) s = .next ((commitEnqueue b.length
        (writeHeader g b.length { s with q := { s.q with data := m } })).respond (Reply.plain .ok [])) := by
  obtain ⟨m, hm, henqueue⟩ := enqueue_of_room hs.core g hne hmax hroom
  refine ⟨m, hm, henqueue, ?_⟩
  rw [exec, execQen, State.gate_ready hready (by simp [ports]), henqueue]
  rfl

/-- A `QDE` with a queued frame answers with it and releases it. -/
theorem exec_qde_of_ring {s : State} (hready : Ready .c s) (hs : RingHolds s) (ho : 0 < s.q.occ) :
    ∃ b : Block, s.q.header s.q.rc = ⟨b.length, (s.q.header s.q.rc).group⟩ ∧ PrefixStored s s.q.rc b b.length ∧
      dequeue s = .ok (some ((s.q.header s.q.rc).group, b),
        setFamily (s.q.header s.q.rc).group (commitDequeue b.length s)) ∧
      exec .qde s = .next ((setFamily (s.q.header s.q.rc).group (commitDequeue b.length s)).respond
        (dequeued (s.q.header s.q.rc).group b)) := by
  obtain ⟨hempty, -⟩ | ⟨-, b, hheader, hpairs, hdequeue⟩ := dequeue_cases_of_ring hs.core
  · omega
  · refine ⟨b, hheader, hpairs, hdequeue, ?_⟩
    rw [exec, execQde, State.gate_ready hready (by simp [ports]), hdequeue]

/-- The words of a dequeue's answer (R103). -/
theorem dequeued_words (g : Family) (b : Block) :
    (dequeued g b).words = statusWord .ok b.length :: (if g = .f48 then 1 else 0) :: Block.words b := by
  cases g <;> rfl

/-- A step of the producer moves the list as a producer may, or is a `QRS`. -/
theorem StepMoves.producer {s t : State} (hs : RingHolds s) (h : StepMoves .p s t) :
    ProducerMoves s t ∨ (frames t = [] ∧ ∃ tail, decode s.portP.input = .ok (.qrs, tail)) := by
  obtain ⟨f, hf, hmoves⟩ | ⟨-, hsame | ⟨i, tail, hdecode, hsame | ⟨-, hmoves⟩ | ⟨-, rfl, hempty⟩ | ⟨hc, -⟩⟩⟩ := h
  · exact .inl (hmoves.producerMoves (hs.producer f hf))
  · exact .inl (.inl hsame)
  · exact .inl (.inl hsame)
  · exact .inl hmoves
  · exact .inr ⟨hempty, tail, hdecode⟩
  · cases hc

/-- A step of the consumer moves the list as a consumer may. -/
theorem StepMoves.consumer {s t : State} (hs : RingHolds s) (h : StepMoves .c s t) : ConsumerMoves s t := by
  obtain ⟨f, hf, hmoves⟩ | ⟨-, hsame | ⟨i, tail, -, hsame | ⟨hp, -⟩ | ⟨hp, -⟩ | ⟨-, hmoves⟩⟩⟩ := h
  · exact hmoves.consumerMoves (hs.consumer f hf)
  · exact .inl hsame
  · exact .inl hsame
  · cases hp
  · cases hp
  · exact hmoves

/-- A step of the reader leaves the list. -/
theorem StepMoves.reader {s t : State} (hs : RingHolds s) (h : StepMoves .t s t) : frames t = frames s := by
  obtain ⟨f, hf, -⟩ | ⟨-, hsame | ⟨i, tail, -, hsame | ⟨hp, -⟩ | ⟨hp, -⟩ | ⟨hc, -⟩⟩⟩ := h
  · have hf' : s.portT.flight = some f := hf
    simp [hs.reader] at hf'
  · exact hsame
  · exact hsame
  · cases hp
  · cases hp
  · cases hc

/-- A step of a port with an operation in flight is the next step of that operation. -/
theorem StepMoves.framesStep {x : Port} {s t : State} {f : Flight} (h : StepMoves x s t)
    (hf : (s.port x).flight = some f) : f.FramesStep s t := by
  obtain ⟨f', hf', hmoves⟩ | ⟨hidle, -⟩ := h
  · obtain rfl : f' = f := Option.some.inj (hf'.symm.trans hf)
    exact hmoves
  · simp [hidle] at hf

/-- A `QEN` with room appends its frame to the list. -/
theorem exec_qen_frames {s : State} (hready : Ready .p s) (hs : RingHolds s) (g : Family) {b : Block} (hne : b ≠ [])
    (hmax : b.length ≤ s.cfg.frameMax) (hroom : s.q.occ < s.cfg.nSlots) :
    ∃ t, exec (.qen g b) s = .next t ∧ frames t = frames s ++ [(g, b.map some)] := by
  obtain ⟨m, hm, -, hexec⟩ := exec_qen_of_ring hready hs g hne hmax hroom
  have hslot := (slotWritten_of_block hmax hm).trans (slotWritten_of_header g b.length _)
  have hsame := hslot.sameRing hs.core hroom
  have hstored : BlockStored (writeHeader g b.length { s with q := { s.q with data := m } }) g b := by
    refine ⟨hne, hmax, hroom, fun j hj => ?_, ?_⟩
    · have hread := (slotWriteBlock_read b hm).1 j hj
      rwa [Nat.zero_add] at hread
    · exact Queue.header_set_same _ _ (by rw [hs.headers]; exact hs.writeCursor)
  exact ⟨_, hexec, by
    rw [frames_respond, frames_commitEnqueue (hs.core.of_sameRing hsame) hstored, hsame.frames_eq hs.core]⟩

/-- A `QDE` takes the first frame off the list and answers with it. -/
theorem exec_qde_frames {s : State} (hready : Ready .c s) (hs : RingHolds s) {g : Family} {first : List (Option Pair)}
    {others : List (Family × List (Option Pair))} (hframes : frames s = (g, first) :: others) :
    ∃ t b, exec .qde s = .next t ∧ first = b.map some ∧ frames t = others ∧ t.family = g ∧
      t.portC.output = s.portC.output ++
        statusWord .ok b.length :: (if g = .f48 then 1 else 0) :: Block.words b := by
  have ho : 0 < s.q.occ := by
    by_contra hnot
    rw [frames_of_empty (by omega)] at hframes
    cases hframes
  obtain ⟨b, hheader, hpairs, hdequeue, hexec⟩ := exec_qde_of_ring hready hs ho
  rw [frames_commitDequeue hs.core ho b.length, frameAt_of_read hheader hpairs] at hframes
  obtain ⟨hfirst, hothers⟩ := List.cons.inj hframes
  obtain ⟨hgroup, hblock⟩ := Prod.mk.inj hfirst
  refine ⟨_, b, hexec, hblock.symm, ?_, ?_, ?_⟩
  · rw [frames_respond, ← hothers]
    rfl
  · simpa using hgroup
  · have hends := (dequeue_touches hdequeue).respond (dequeued_words (s.q.header s.q.rc).group b)
    have houtput := hends.output
    rw [hready.1] at houtput
    rw [← hgroup]
    exact houtput

/-- Settles O33: the two operations by the ring's list of frames, every interleaved step by what its agent may do. -/
theorem queueIsFifo : Obligations.QueueIsFifo := by
  refine ⟨fun s g b hready hs hne hmax hroom => exec_qen_frames hready hs g hne hmax hroom,
    fun s g first others hready hs hframes => exec_qde_frames hready hs hframes, ?_⟩
  rintro s t turn sched ⟨hlife, -, -, hring, hreset⟩ hsched hstep
  by_cases hready : s.life = .ready
  · have hs := hring hready
    obtain ⟨hfault, -⟩ | ⟨u, hu, -, hmoves⟩ := hs.step hsched
    · simp [hfault] at hstep
    rw [hu] at hstep
    cases hstep
    refine ⟨fun hport => ?_, fun hport => ?_, fun hport => ?_⟩ <;> rw [hport] at hmoves
    · refine ⟨?_, fun caller g b j hf => hmoves.framesStep hf, fun caller g b hf => hmoves.framesStep hf⟩
      obtain (hsame | happended) | hreset := hmoves.producer hs
      · exact .inl hsame
      · exact .inr (.inl happended)
      · exact .inr (.inr hreset)
    · exact ⟨hmoves.consumer hs, fun caller g n got hf => hmoves.framesStep hf⟩
    · exact hmoves.reader hs
  · have hidle := (lifecycleInv_iff.mp hlife).2 hready
    have hp : s.portP.flight = none := hidle .p
    have hc : s.portC.flight = none := hidle .c
    obtain ⟨u, hu, hq⟩ := step_of_unready hidle hready
    rw [hu] at hstep
    cases hstep
    have hsame : frames t = frames s := frames_congr (step_cfg hu) hq
    exact ⟨fun _ => ⟨.inl hsame, fun _ _ _ _ hf => by simp [hp] at hf, fun _ _ _ hf => by simp [hp] at hf⟩,
      fun _ => ⟨.inl hsame, fun _ _ _ _ hf => by simp [hc] at hf⟩, fun _ => hsame⟩

/-! The slots of two payloads. -/

/-- Settles O37: with room and a queued frame the write cursor is not the read cursor. -/
theorem payloadSlotsDiffer : Obligations.PayloadSlotsDiffer := by
  intro s f h hinv hf hh henqueue hdequeue
  obtain ⟨hlife, -, -, hring, -⟩ := hinv
  have hs := hring (hlife.ready_of_flight (x := .p) hf)
  have hroom : s.q.occ < s.cfg.nSlots := by
    have hproducer := hs.producer f hf
    obtain ⟨caller, g, b, j, rfl⟩ | ⟨caller, g, b, rfl⟩ := henqueue
    · obtain ⟨-, -, -, hroom, -⟩ := hproducer
      exact hroom
    · obtain ⟨-, -, hroom, -⟩ := hproducer
      exact hroom
  have ho : 0 < s.q.occ := by
    have hconsumer := hs.consumer h hh
    obtain ⟨caller, rfl⟩ | ⟨caller, g, n, got, rfl⟩ := hdequeue
    · exact hconsumer
    · obtain ⟨ho, -⟩ := hconsumer
      exact ho
  have hne : s.q.wc ≠ s.q.rc := by
    have hslot := frameSlot_ne_wc hs.cursors ho hroom
    rw [frameSlot_zero hs.readCursor] at hslot
    exact hslot.symm
  exact ⟨hne, fun j k hj hk => slotCell_ne hne hj hk⟩

/-! The queue operations on their own. -/

/-- Settles O30: the cells of the block's pairs, its header and the commit. -/
theorem qenStoresTheBlock : Obligations.QenStoresTheBlock := by
  intro s g b hready hs hne hmax hroom
  obtain ⟨m, hm, henqueue, hexec⟩ := exec_qen_of_ring hready hs g hne hmax hroom
  obtain ⟨hblock, hother⟩ := slotWriteBlock_read b hm
  refine ⟨_, hexec, ?_, fun i hi => ?_, fun j hj => ?_, fun a ha => ?_, by simp, by simp, by simp, by simp,
    (enqueue_touches henqueue).respond (Reply.words_plain .ok [])⟩
  · rw [State.respond_q]
    exact Queue.header_set_same _ _ (by rw [hs.headers]; exact hs.writeCursor)
  · rw [State.respond_q]
    exact Queue.header_set_other s.q _ hi
  · have hread := hblock j hj
    rw [Nat.zero_add] at hread
    simpa [slotCell] using hread
  · simpa using hother a fun k hk => by simpa [slotCell] using ha k hk

/-- Settles O31: the width check, then the check for room. -/
theorem qenRefusals : Obligations.QenRefusals := by
  intro s g b hready
  have refused (st : Status) (h : enqueue g b s = .ok (st, s)) :
      ∃ t, exec (.qen g b) s = .next t ∧ Ends [] [statusWord st 0] [] 0 s t := by
    refine ⟨_, ?_, Ends.of_raise s st []⟩
    rw [exec, execQen, State.gate_ready hready (by simp [ports]), h]
    rfl
  exact ⟨fun hwidth => refused .widthErr (by rw [enqueue, if_pos hwidth]),
    fun hne hmax hfull => refused .qFull (by rw [enqueue, if_neg (not_or.mpr ⟨hne, Nat.not_lt.mpr hmax⟩), if_pos hfull])⟩

/-- Settles O32: the frame of the slot at the read cursor, or `Q_EMPTY`. -/
theorem qdeReturnsTheOldestFrame : Obligations.QdeReturnsTheOldestFrame := by
  refine ⟨fun s hready hs ho => ?_, fun s hready hempty => ?_⟩
  · obtain ⟨b, hheader, hpairs, hdequeue, hexec⟩ := exec_qde_of_ring hready hs ho
    exact ⟨_, b, hexec, (congrArg SlotHeader.len hheader).symm, hpairs, by simp, by simp, by simp, by simp,
      (dequeue_touches hdequeue).respond (dequeued_words _ b)⟩
  · refine ⟨_, ?_, Ends.of_raise s .qEmpty [0]⟩
    rw [exec, execQde, State.gate_ready hready (by simp [ports]), dequeue, if_pos hempty]
    rfl

/-- Settles O35: `QRS` with the consumer idle, and the reset race. -/
theorem qrsRestoresTheQueue : Obligations.QrsRestoresTheQueue := by
  refine ⟨fun s hready hidle => ?_, fun s hready hflight => ?_⟩
  · refine ⟨(resetQueue s).respond (Reply.plain .ok []), ?_, by simp, by simp, by simp, by simp, by simp, by simp,
      by simp, (resetQueue_touches s).respond (Reply.words_plain .ok [])⟩
    rw [exec, execQrs, State.gate_ready hready (by simp [ports]), hidle]
    rfl
  · obtain ⟨f, hf⟩ := Option.ne_none_iff_exists'.mp hflight
    rw [exec, execQrs, State.gate_ready hready (by simp [ports]), hf]

/-! Who writes what. -/

/-- The first step of an operation writes within the operation's row (R50, R78). -/
theorem begin_staysWithin_row (i : Instr) (s : State) : StaysWithin (mayWrite i) s (begin i s) := by
  cases i
  case qen g b => exact .gate ((beginEnqueue_staysWithin .command g b s).mono (by simp))
  case qde => exact .gate ((beginDequeue_staysWithin .command s).mono (by simp))
  case fbu tick =>
    exact .gate (body := fun s => s.goOn (.fbuRest tick s.q.total))
      (staysWithin_next.mpr ((Touches.refl _ s).keeps_setPort _))
  case pcy tick raw =>
    refine .gate ?_
    unfold beginCycle
    split <;> exact staysWithin_next.mpr (((takeUpdated_touches s).mono (by simp [mayWrite])).keeps_setPort _)
  case ccy =>
    refine .gate ?_
    unfold beginConsume
    split <;> exact staysWithin_next.mpr (((takeResetRequest_touches s).mono (by simp [mayWrite])).keeps_setPort _)
  all_goals exact exec_staysWithin _ s

/-- The footprint of a step: nothing, that of the operation in flight, or the row of the operation it starts. -/
def StepFootprint (x : Port) (s : State) (written : List Item) : Prop :=
  written = [] ∨ (∃ f, (s.port x).flight = some f ∧ written = f.mayWrite) ∨
  ∃ i tail, decode (s.port x).input = .ok (i, tail) ∧ x ∈ ports i.row ∧ written = mayWrite i

/-- A step writes within its footprint, and no port but its own. -/
theorem step_footprint {s t : State} {turn : Turn} {sched : List Turn} (hsched : s.sched = turn :: sched)
    (h : step s = .next t) :
    ∃ written, StepFootprint turn.port s written ∧ (∀ x, x ∉ written → x.same s t) ∧
      ∀ y, y ≠ turn.port → t.port y = s.port y := by
  have consumed (ws : List Word) : Keeps [] (s.atTurn turn sched) ((s.atTurn turn sched).consume ws) :=
    (Touches.refl [] (s.atTurn turn sched)).keeps_setPort _
  have within {written : List Item} (hkeeps : Keeps written (s.atTurn turn sched) t) :
      (∀ x, x ∉ written → x.same s t) ∧ ∀ y, y ≠ turn.port → t.port y = s.port y :=
    ⟨fun x hx => Item.same_trans (x.same_atTurn s turn sched) (hkeeps.rest x hx),
      fun y hy => (hkeeps.otherPorts y hy).trans (by simp)⟩
  obtain ⟨hnone, -⟩ | ⟨turn', sched', hsched',
    ⟨f, hf, h⟩ | ⟨-, ⟨i, rest, hdecode, h⟩ | ⟨i, rest, hdecode, -, hport, h, -⟩ | ⟨v, -, rfl⟩⟩⟩ := step_next_cases h
  · simp [hsched] at hnone
  all_goals
    rw [hsched] at hsched'
    obtain ⟨rfl, rfl⟩ := List.cons.inj hsched'
  · exact ⟨_, .inr (.inl ⟨f, hf, rfl⟩), within (advance_staysWithin f _ t h)⟩
  · obtain ⟨hport, -⟩ | ⟨r, rfl⟩ := exec_next h
    · exact ⟨_, .inr (.inr ⟨i, rest, hdecode, by simpa using hport, rfl⟩),
        within (((consumed rest).mono (by simp)).trans (exec_staysWithin i _ t h))⟩
    · exact ⟨_, .inl rfl, within ((consumed rest).trans ((Touches.refl [] _).keeps_respond r))⟩
  · exact ⟨_, .inr (.inr ⟨i, rest, hdecode, hport, rfl⟩),
      within (((consumed rest).mono (by simp)).trans (begin_staysWithin_row i _ t h))⟩
  · exact ⟨_, .inl rfl, within ((Touches.refl [] (s.atTurn turn sched)).keeps_setPort v)⟩

/-- What the reader's step adds to the stream to the physical output stage: nothing. -/
theorem step_emitted_of_reader {s t : State} {turn : Turn} {sched : List Turn} (hsched : s.sched = turn :: sched)
    (hport : turn.port = .t) (hidle : s.portT.flight = none) (h : step s = .next t) : t.emitted = s.emitted := by
  have ran {i : Instr} {ws : List Word} (hi : Port.t ∈ ports i.row)
      (h : exec i ((s.atTurn turn sched).consume ws) = .next t) : t.emitted = s.emitted := by
    obtain ⟨st, outLen, words, stream, draws, hends, -, hstream⟩ := completes_of_exec h
    have hccy : i.row ≠ .ccy := fun hrow => by simp [hrow, ports] at hi
    rw [hends.emitted, hstream hccy, List.append_nil, State.consume, State.setPort_emitted]
    rfl
  obtain ⟨hnone, -⟩ | ⟨turn', sched', hsched',
    ⟨f, hf, h⟩ | ⟨-, ⟨i, rest, hdecode, h⟩ | ⟨i, rest, hdecode, -, hi, h, -⟩ | ⟨v, -, rfl⟩⟩⟩ := step_next_cases h
  · simp [hsched] at hnone
  all_goals
    rw [hsched] at hsched'
    obtain ⟨rfl, rfl⟩ := List.cons.inj hsched'
  · rw [hport] at hf
    have hf' : s.portT.flight = some f := hf
    simp [hidle] at hf'
  · obtain ⟨hi, -⟩ | ⟨r, rfl⟩ := exec_next h
    · exact ran (by simpa [hport] using hi) h
    · simp [State.consume, State.atTurn]
  · rw [hport] at hi
    have hwhole : begin i ((s.atTurn turn sched).consume rest) = exec i ((s.atTurn turn sched).consume rest) := by
      cases i <;> simp [Instr.row, ports] at hi <;> rfl
    exact ran hi (hwhole ▸ h)
  · simp [State.atTurn]

/-- A consumer's operation in flight writes within the row of `CCY`. -/
theorem ConsumerFlight.mayWrite_subset {s : State} {f : Flight} (h : ConsumerFlight s f) :
    f.mayWrite ⊆ mayWrite .ccy := by
  cases f with
  | deqHeader | deqRead | deqFamily | ccyZero | ccyMute | ccyEntryZero | ccyDequeue | ccyEncode =>
    simp [Flight.mayWrite, mayWrite]
  | enqWrite | enqCommit | fbuRest | pcyZero | pcyAsk | pcyFeedback | pcyOccupancy | pcyOversample | pcyTotal
  | pcyUpdate | pcyEnqueue => exact h.elim

/-- A producer's operation in flight writes within the row of `PCY`. -/
theorem ProducerFlight.mayWrite_subset {s : State} {f : Flight} (h : ProducerFlight s f) :
    f.mayWrite ⊆ mayWrite (.pcy 0 []) := by
  cases f with
  | enqWrite | enqCommit | fbuRest | pcyZero | pcyAsk | pcyFeedback | pcyOccupancy | pcyOversample | pcyTotal
  | pcyUpdate | pcyEnqueue => simp [Flight.mayWrite, mayWrite]
  | deqHeader | deqRead | deqFamily | ccyZero | ccyMute | ccyEntryZero | ccyDequeue | ccyEncode => exact h.elim

/-- An operation that the `C` port accepts writes within the row of `CCY`. -/
theorem mayWrite_subset_of_portC {i : Instr} (h : Port.c ∈ ports i.row) : mayWrite i ⊆ mayWrite .ccy := by
  cases i <;> simp [Instr.row, ports] at h <;> simp [mayWrite]

/-- An operation that the `P` port accepts writes nothing that the consumer owns (R22). -/
theorem not_mayWrite_of_portP {i : Instr} (h : Port.p ∈ ports i.row) {x : Item} (hx : x ∈ consumerItems) :
    x ∉ mayWrite i := by
  simp only [consumerItems, List.mem_cons, List.not_mem_nil, or_false] at hx
  cases i <;> simp [Instr.row, ports] at h <;> obtain rfl | rfl | rfl := hx <;> simp [mayWrite, stageItems]

/-- An operation that the `T` port accepts writes nothing. -/
theorem mayWrite_of_portT {i : Instr} (h : Port.t ∈ ports i.row) : mayWrite i = [] := by
  cases i <;> simp [Instr.row, ports] at h <;> rfl

/-- Of the operations that the `P` port accepts only `QRS` writes the read cursor (R50). -/
theorem eq_qrs_of_writes_readCursor {i : Instr} (h : Port.p ∈ ports i.row) (hx : Item.readCursor ∈ mayWrite i) :
    i = .qrs := by
  cases i <;> simp [Instr.row, ports] at h <;> simp [mayWrite, stageItems] at hx ⊢

/-- The footprint of a consumer's step lies within the row of `CCY`. -/
theorem StepFootprint.consumer {s : State} {written : List Item} (h : StepFootprint .c s written)
    (hflight : ∀ f, s.portC.flight = some f → ConsumerFlight s f) : written ⊆ mayWrite .ccy := by
  obtain rfl | ⟨f, hf, rfl⟩ | ⟨i, tail, -, hi, rfl⟩ := h
  · exact List.nil_subset _
  · exact (hflight f hf).mayWrite_subset
  · exact mayWrite_subset_of_portC hi

/-- The footprint of a producer's step holds nothing that the consumer owns, and the read cursor only of a `QRS`. -/
theorem StepFootprint.producer {s : State} {written : List Item} (h : StepFootprint .p s written)
    (hflight : ∀ f, s.portP.flight = some f → ProducerFlight s f) :
    (∀ x ∈ consumerItems, x ∉ written) ∧
    (Item.readCursor ∈ written → ∃ tail, decode s.portP.input = .ok (.qrs, tail)) := by
  obtain rfl | ⟨f, hf, rfl⟩ | ⟨i, tail, hdecode, hi, rfl⟩ := h
  · exact ⟨fun x _ => by simp, fun hrc => by simp at hrc⟩
  · have hsub := (hflight f hf).mayWrite_subset
    refine ⟨fun x hx hmem => not_mayWrite_of_portP (i := .pcy 0 []) (by decide) hx (hsub hmem), fun hrc => ?_⟩
    exact absurd (hsub hrc) (by decide)
  · refine ⟨fun x hx => not_mayWrite_of_portP hi hx, fun hrc => ?_⟩
    obtain rfl := eq_qrs_of_writes_readCursor hi hrc
    exact ⟨tail, hdecode⟩

/-- The footprint of a reader's step is empty. -/
theorem StepFootprint.reader {s : State} {written : List Item} (h : StepFootprint .t s written)
    (hidle : s.portT.flight = none) : written = [] := by
  obtain rfl | ⟨f, hf, rfl⟩ | ⟨i, tail, -, hi, rfl⟩ := h
  · rfl
  · have hf' : s.portT.flight = some f := hf
    simp [hidle] at hf'
  · exact mayWrite_of_portT hi

/-- What the ring invariant says of the operations in flight, before `READY` too. -/
theorem RingInv.flights {s : State} (h : RingInv s) :
    (∀ f, s.portP.flight = some f → ProducerFlight s f) ∧ (∀ f, s.portC.flight = some f → ConsumerFlight s f) ∧
    s.portT.flight = none := by
  obtain ⟨⟨-, hidle⟩, -, -, hring, -⟩ := h
  by_cases hready : s.life = .ready
  · exact ⟨(hring hready).producer, (hring hready).consumer, (hring hready).reader⟩
  · obtain ⟨hp, hc, ht⟩ := hidle hready
    exact ⟨fun f hf => by simp [hp] at hf, fun f hf => by simp [hc] at hf, ht⟩

/-- Settles O59: by the footprint of each agent's step. -/
theorem agentsWriteOnlyTheirOwn : Obligations.AgentsWriteOnlyTheirOwn := by
  intro s t turn sched hinv hsched hstep
  obtain ⟨hproducer, hconsumer, hreader⟩ := hinv.flights
  obtain ⟨written, hfoot, hrest, hports⟩ := step_footprint hsched hstep
  refine ⟨fun hport => ?_, fun hport => ?_, fun hport => ?_⟩ <;> rw [hport] at hfoot hports
  · have hsub := hfoot.consumer hconsumer
    have howned : ∀ x ∈ producerItems, x ∉ mayWrite .ccy := by decide
    exact ⟨fun x hx => hrest x fun hmem => howned x hx (hsub hmem), hports .p (by decide), hports .t (by decide)⟩
  · obtain ⟨howned, hrc⟩ := hfoot.producer hproducer
    refine ⟨fun x hx => hrest x (howned x hx), hports .c (by decide), hports .t (by decide), fun hne => ?_⟩
    by_contra hnot
    exact hne (hrest .readCursor fun hmem => hnot (hrc hmem))
  · obtain rfl := hfoot.reader hreader
    exact ⟨fun x => hrest x (by simp), hports .p (by decide), hports .c (by decide),
      step_emitted_of_reader hsched hport hreader hstep⟩

end Sys2Proof.Machine
end

section
/-! An operation's steps, run without interruption, do what the operation does (spec/20_memory.md section 6, R78). -/

namespace Sys2Proof.Machine

/-! Results that finish. -/

/-- From the result `r` the steps of the issuing port's own operation come to an end, in `target`. -/
def FinishesAs (r target : Result) : Prop := ∃ n, ∀ m, n ≤ m → andThen r (finishFlight m) = target

/-- Nothing in flight on the issuing port. -/
def Landed (s : State) : Prop := (s.port s.issuer).flight = none

/-- The issuing port with an operation in flight, as its next step finds it. -/
def State.inFlight (s : State) (f : Flight) : State := s.setPort s.issuer { s.port s.issuer with flight := some f }

/-- A state with nothing in flight is the end. -/
theorem FinishesAs.of_landed {s : State} (h : Landed s) : FinishesAs (.next s) (.next s) := by
  refine ⟨0, fun m _ => ?_⟩
  cases m with
  | zero => rfl
  | succ m =>
    change finishFlight (m + 1) s = _
    rw [finishFlight, h]

/-- A fault is the end. -/
theorem FinishesAs.of_fault (e : Fault) : FinishesAs (.fault e) (.fault e) := ⟨0, fun _ _ => rfl⟩

/-- An operation that goes on finishes as its next step does. -/
theorem FinishesAs.of_goOn {s : State} {f : Flight} {target : Result}
    (h : FinishesAs (advance f (s.inFlight f)) target) : FinishesAs (s.goOn f) target := by
  obtain ⟨n, hn⟩ := h
  have hflight : ((s.inFlight f).port (s.inFlight f).issuer).flight = some f := by
    simp [State.inFlight]
  refine ⟨n + 1, fun m hm => ?_⟩
  obtain ⟨k, rfl⟩ : ∃ k, m = k + 1 := ⟨m - 1, by omega⟩
  rw [← hn k (by omega)]
  change finishFlight (k + 1) (s.inFlight f) = _
  rw [finishFlight, hflight]

/-- A response to a port with nothing in flight is the end. -/
theorem FinishesAs.of_respond {s : State} (h : Landed s) (r : Reply) :
    FinishesAs (.next (s.respond r)) (.next (s.respond r)) :=
  .of_landed (by rw [Landed, State.respond_issuer, State.respond_flight, h])

/-! What an operation in flight does not change: no body looks at the ports. -/

/-- Going on replaces what is in flight. -/
@[simp] theorem State.inFlight_goOn (s : State) (f f' : Flight) : (s.inFlight f).goOn f' = s.goOn f' := by
  simp [State.inFlight, State.goOn]

/-- Landing restores a port that had nothing in flight. -/
theorem State.inFlight_land {s : State} (h : Landed s) (f : Flight) : (s.inFlight f).land = s := by
  have hport : ({ s.port s.issuer with flight := none } : PortState) = s.port s.issuer := by
    rw [← h]
  simp [State.inFlight, State.land, hport]

/-- Landing leaves a port that has nothing in flight. -/
theorem Landed.land_eq {s : State} (h : Landed s) : s.land = s := by
  have hport : ({ s.port s.issuer with flight := none } : PortState) = s.port s.issuer := by
    rw [← h]
  simp [State.land, hport]

/-- A body leaves a port with nothing in flight so. -/
theorem Landed.touches {written : List Item} {stream : List Emission} {draws : Nat} {s t : State} (hs : Landed s)
    (h : Touches written stream draws s t) : Landed t := by
  rw [Landed, h.issuer, h.ports]
  exact hs

/-- A function of the state that looks at no port and changes none. -/
def IgnoresPorts (body : State → State) : Prop := ∀ s f, body (s.inFlight f) = (body s).inFlight f

theorem zeroCascade_ignoresPorts : IgnoresPorts zeroCascade := by
  intro s f
  cases s
  cases ‹Port› <;> rfl

theorem configureFeedback_ignoresPorts : IgnoresPorts fun s => (configureFeedback s).2 := by
  intro s f
  have hformat : activeFormat (s.inFlight f) = activeFormat s := by simp [activeFormat, State.inFlight]
  simp only [configureFeedback, hformat]
  split
  · rfl
  · cases s
    cases ‹Port› <;> rfl

theorem updateFeedback_inFlight (tick : Word) (total : Nat) (s : State) (f : Flight) :
    updateFeedback tick total (s.inFlight f) =
      ((updateFeedback tick total s).1, (updateFeedback tick total s).2.inFlight f) := by
  have hformat : activeFormat (s.inFlight f) = activeFormat s := by simp [activeFormat, State.inFlight]
  have hglitch : isGlitch tick (s.inFlight f) = isGlitch tick s := by simp [isGlitch, State.inFlight]
  have hfb : (s.inFlight f).fb = s.fb := by simp [State.inFlight]
  have hvalue (r : Rate) : correctedValue r total (s.inFlight f) = correctedValue r total s := by
    simp [correctedValue, feedbackError, State.inFlight]
  simp only [updateFeedback, hformat, hglitch, hfb, hvalue]
  split
  · rfl
  · split_ifs
    · cases s
      cases ‹Port› <;> rfl
    · cases s
      cases ‹Port› <;> rfl
    · rfl

theorem encodePair_inFlight (p : Pair) (s : State) (f : Flight) :
    encodePair p (s.inFlight f) = ((encodePair p s).1, (encodePair p s).2.inFlight f) := by
  have hlose : loseModulator (s.inFlight f) = (loseModulator s).inFlight f := by
    cases s
    cases ‹Port› <;> rfl
  have hstore (left right : Channel) : storeChannels left right (s.inFlight f) = (storeChannels left right s).inFlight f := by
    cases s
    cases ‹Port› <;> rfl
  have hfree : freeWords (s.inFlight f) = freeWords s := by simp [freeWords, State.inFlight]
  have hcfg : (s.inFlight f).cfg = s.cfg := by simp [State.inFlight]
  have hds : (s.inFlight f).ds = s.ds := by simp [State.inFlight]
  simp only [encodePair, hlose, hstore, hfree, hcfg, hds]
  split
  · split_ifs <;> rfl
  · rfl
  · rfl

/-- What a state with an operation in flight has in its registers. -/
@[simp] theorem State.inFlight_cfg (s : State) (f : Flight) : (s.inFlight f).cfg = s.cfg := by simp [State.inFlight]

@[simp] theorem State.inFlight_q (s : State) (f : Flight) : (s.inFlight f).q = s.q := by simp [State.inFlight]

@[simp] theorem State.inFlight_mute (s : State) (f : Flight) : (s.inFlight f).mute = s.mute := by simp [State.inFlight]

@[simp] theorem activeFormat_inFlight (s : State) (f : Flight) : activeFormat (s.inFlight f) = activeFormat s := by
  simp [activeFormat, State.inFlight]

/-- A step that changes registers and goes on. -/
theorem FinishesAs.of_body {body : State → State} (hbody : IgnoresPorts body) {f f' : Flight} {s : State}
    {target : Result} (hstep : advance f (s.inFlight f) = (body (s.inFlight f)).goOn f')
    (h : FinishesAs ((body s).goOn f') target) : FinishesAs (s.goOn f) target :=
  .of_goOn (by rwa [hstep, hbody, State.inFlight_goOn])

/-! The encoding of a consumer cycle. -/

/-- The end of a consumer cycle, by what its encoding gave, after the words `words`. -/
def finishCycle (st : Status) (words : List (Word × Word)) : Option (List (Word × Word)) × State → Result
  | (some ws, s) => .next (finishEncoding st (words ++ ws) s)
  | (none, s) => .next (finishOverflow s)

/-- A consumer cycle's encoding, from its first pair on. -/
theorem encodeAndFinish_eq (st : Status) (b : Block) (s : State) :
    encodeAndFinish st b s = finishCycle st [] (encodeBlock b s) := by
  unfold encodeAndFinish
  split <;> rename_i heq <;> rw [heq] <;> rfl

/-- A consumer cycle's encoding after its first pair. -/
theorem finishCycle_cons (st : Status) (words : List (Word × Word)) (p : Pair) (b : Block) (s : State) :
    (∀ u, encodePair p s = (none, u) → finishCycle st words (encodeBlock (p :: b) s) = .next (finishOverflow u)) ∧
    ∀ w u, encodePair p s = (some w, u) →
      finishCycle st words (encodeBlock (p :: b) s) = finishCycle st (words ++ [w]) (encodeBlock b u) := by
  refine ⟨fun u hu => by simp only [encodeBlock, hu]; rfl, fun w u hu => ?_⟩
  simp only [encodeBlock, hu]
  cases hb : encodeBlock b u with
  | mk o v => cases o <;> simp [finishCycle]

/-- The steps of the encoding. -/
theorem finishes_ccyEncode (st : Status) (todo : Block) : ∀ (words : List (Word × Word)) (s : State), Landed s →
    FinishesAs (s.goOn (.ccyEncode todo words st)) (finishCycle st words (encodeBlock todo s)) := by
  induction todo with
  | nil =>
    intro words s hs
    refine .of_goOn ?_
    change FinishesAs (.next (finishEncoding st words (s.inFlight _).land)) (.next (finishEncoding st (words ++ []) s))
    rw [State.inFlight_land hs, List.append_nil]
    exact .of_respond (hs.touches (emit_touches words s)) _
  | cons p rest ih =>
    intro words s hs
    obtain ⟨k, hk⟩ := encodePair_touches p s
    have hlanded := hs.touches hk
    obtain ⟨hnone, hsome⟩ := finishCycle_cons st words p rest s
    refine .of_goOn ?_
    simp only [advance, stepEncode, encodePair_inFlight]
    cases hp : encodePair p s with
    | mk o u =>
      rw [hp] at hlanded
      cases o with
      | none =>
        rw [hnone u hp]
        change FinishesAs (.next (finishOverflow (u.inFlight _).land)) _
        have hu : Landed u := hlanded
        rw [State.inFlight_land hu]
        exact .of_respond (s := emit (Config.freeEmission u.freeCount) { u with freeCount := u.freeCount + 1 }) hu _
      | some w =>
        rw [hsome w u hp]
        simp only [State.inFlight_goOn]
        exact ih (words ++ [w]) u hlanded

/-! Dequeues. -/

/-- The end of a dequeue, by what its body gave. -/
def finishDequeue : DequeueFor → Except Fault (Option (Family × Block) × State) → Result
  | _, .error e => .fault e
  | .command, .ok (none, s) => s.raise .qEmpty [0]
  | .cycle, .ok (none, s) => s.raise .qEmpty []
  | .command, .ok (some (g, b), s) => .next (s.respond (dequeued g b))
  | .cycle, .ok (some (_, b), s) => encodeAndFinish .ok b s

/-- The body of `QDE`, by what its read gives. -/
theorem dequeue_eq (s : State) :
    dequeue s = if s.q.occ = 0 then .ok (none, s) else
      (slotReadBlock s.cfg s.q.data s.q.rc 0 (s.q.header s.q.rc).len).map fun b =>
        (some ((s.q.header s.q.rc).group, b),
          setFamily (s.q.header s.q.rc).group (commitDequeue (s.q.header s.q.rc).len s)) := by
  unfold dequeue
  split
  · rfl
  · cases slotReadBlock s.cfg s.q.data s.q.rc 0 (s.q.header s.q.rc).len <;> rfl

/-- The family line is the last thing a dequeue writes. -/
theorem finishes_deqFamily (caller : DequeueFor) (g : Family) (b : Block) {s : State} (hs : Landed s) :
    FinishesAs (s.goOn (.deqFamily caller g b)) (finishDequeue caller (.ok (some (g, b), setFamily g s))) := by
  have hfamily : Landed (setFamily g s) := hs.touches (setFamily_touches g s)
  have hignores (f : Flight) : setFamily g (s.inFlight f) = (setFamily g s).inFlight f := by
    cases s
    cases ‹Port› <;> rfl
  refine .of_goOn ?_
  cases caller with
  | command =>
    change FinishesAs (.next ((setFamily g (s.inFlight _)).land.respond _)) _
    rw [hignores, State.inFlight_land hfamily]
    exact .of_respond hfamily _
  | cycle =>
    change FinishesAs ((setFamily g (s.inFlight _)).goOn _) (encodeAndFinish .ok b (setFamily g s))
    rw [hignores, State.inFlight_goOn, encodeAndFinish_eq]
    exact finishes_ccyEncode .ok b [] _ hfamily

/-- The payload steps of a dequeue. -/
theorem finishes_deqRead (caller : DequeueFor) (g : Family) {s : State} (hs : Landed s) (k : Nat) : ∀ got : Block,
    FinishesAs (s.goOn (.deqRead caller g (got.length + k) got))
      (finishDequeue caller ((slotReadBlock s.cfg s.q.data s.q.rc got.length k).map fun b =>
        (some (g, got ++ b), setFamily g (commitDequeue (got.length + k) s)))) := by
  induction k with
  | zero =>
    intro got
    have hignores : IgnoresPorts (commitDequeue (got.length + 0)) := by
      intro s f
      cases s
      cases ‹Port› <;> rfl
    refine .of_body hignores (f' := .deqFamily caller g got) (by simp [advance, stepDequeueRead]) ?_
    have hfamily := finishes_deqFamily caller g got (hs.touches (commitDequeue_touches (got.length + 0) s))
    simpa [slotReadBlock, Except.map] using hfamily
  | succ k ih =>
    intro got
    refine .of_goOn ?_
    have hlt : got.length < got.length + (k + 1) := by omega
    simp only [advance, stepDequeueRead, if_pos hlt, State.inFlight_cfg, State.inFlight_q, slotReadBlock]
    cases hread : slotRead s.cfg s.q.data s.q.rc got.length with
    | error e => exact .of_fault e
    | ok p =>
      simp only [State.inFlight_goOn]
      have hnext := ih (got ++ [p])
      rw [show (got ++ [p]).length + k = got.length + (k + 1) by simp; omega] at hnext
      rw [show (got ++ [p]).length = got.length + 1 by simp] at hnext
      cases hrest : slotReadBlock s.cfg s.q.data s.q.rc (got.length + 1) k <;> rw [hrest] at hnext <;>
        simpa [Except.map] using hnext

/-- A dequeue from its first step on. -/
theorem finishes_beginDequeue (caller : DequeueFor) {s : State} (hs : Landed s) :
    FinishesAs (beginDequeue caller s) (finishDequeue caller (dequeue s)) := by
  unfold beginDequeue
  rw [dequeue_eq]
  split
  · rw [hs.land_eq]
    cases caller <;> exact .of_respond hs _
  · refine .of_goOn ?_
    simp only [advance, State.inFlight_goOn, State.inFlight_q]
    simpa using finishes_deqRead caller (s.q.header s.q.rc).group hs (s.q.header s.q.rc).len []

/-! Enqueues. -/

/-- The end of an enqueue, by what its body gave. -/
def finishEnqueue (caller : EnqueueFor) : Except Fault (Status × State) → Result
  | .error e => .fault e
  | .ok (st, s) => endEnqueue caller st s

/-- The end of an enqueue in flight. -/
theorem endEnqueue_inFlight (caller : EnqueueFor) (st : Status) {s : State} (hs : Landed s) (f : Flight) :
    endEnqueue caller st (s.inFlight f) = endEnqueue caller st s := by
  cases caller <;> simp only [endEnqueue, State.inFlight_land hs, hs.land_eq]

/-- The end of an enqueue is an end. -/
theorem finishes_endEnqueue (caller : EnqueueFor) (st : Status) {s : State} (hs : Landed s) :
    FinishesAs (endEnqueue caller st s) (endEnqueue caller st s) := by
  cases caller <;> simp only [endEnqueue, hs.land_eq] <;> exact .of_respond hs _

/-- The commit of an enqueue. -/
theorem finishes_enqCommit (caller : EnqueueFor) (g : Family) (b : Block) {s : State} (hs : Landed s) :
    FinishesAs (s.goOn (.enqCommit caller g b)) (endEnqueue caller .ok (commitEnqueue b.length s)) := by
  have hcommit := hs.touches (commitEnqueue_touches b.length s)
  have hignores (f : Flight) : commitEnqueue b.length (s.inFlight f) = (commitEnqueue b.length s).inFlight f := by
    cases s
    cases ‹Port› <;> rfl
  refine .of_goOn ?_
  rw [advance, hignores, endEnqueue_inFlight caller .ok hcommit]
  exact finishes_endEnqueue caller .ok hcommit

/-- One pair stored. -/
def storeData (m : Memory) (s : State) : State := { s with q := { s.q with data := m } }

theorem storeData_ignoresPorts (m : Memory) : IgnoresPorts (storeData m) := by
  intro s f
  cases s
  cases ‹Port› <;> rfl

/-- A payload step of an enqueue with a pair left. -/
theorem advance_enqWrite {caller : EnqueueFor} {g : Family} {b : Block} {j : Nat} {p : Pair} (hp : b[j]? = some p)
    (s : State) :
    (∀ e, slotWrite s.cfg s.q.data s.q.wc j p = .error e → advance (.enqWrite caller g b j) s = .fault e) ∧
    ∀ m, slotWrite s.cfg s.q.data s.q.wc j p = .ok m →
      advance (.enqWrite caller g b j) s = (storeData m s).goOn (.enqWrite caller g b (j + 1)) := by
  refine ⟨fun e he => ?_, fun m hm => ?_⟩
  · simp only [advance, stepEnqueueWrite, hp, he]
  · simp only [advance, stepEnqueueWrite, hp, hm]
    rfl

/-- The payload steps of an enqueue. -/
theorem finishes_enqWrite (caller : EnqueueFor) (g : Family) (todo : Block) : ∀ (done : Block) (s : State), Landed s →
    FinishesAs (s.goOn (.enqWrite caller g (done ++ todo) done.length))
      (finishEnqueue caller ((slotWriteBlock s.cfg s.q.data s.q.wc done.length todo).map fun m =>
        (.ok, commitEnqueue (done ++ todo).length
          (writeHeader g (done ++ todo).length (storeData m s))))) := by
  induction todo with
  | nil =>
    intro done s hs
    have hignores : IgnoresPorts (writeHeader g (done ++ []).length) := by
      intro s f
      cases s
      cases ‹Port› <;> rfl
    refine .of_body hignores (f' := .enqCommit caller g (done ++ [])) (by simp [advance, stepEnqueueWrite]) ?_
    exact finishes_enqCommit caller g _ (hs.touches (writeHeader_touches g _ s))
  | cons p todo ih =>
    intro done s hs
    have hget : (done ++ p :: todo)[done.length]? = some p := by simp
    obtain ⟨hfault, hstored⟩ := advance_enqWrite (caller := caller) (g := g) hget
      (s.inFlight (.enqWrite caller g (done ++ p :: todo) done.length))
    rw [State.inFlight_cfg, State.inFlight_q] at hfault hstored
    refine .of_goOn ?_
    rw [slotWriteBlock]
    cases hwrite : slotWrite s.cfg s.q.data s.q.wc done.length p with
    | error e =>
      rw [hfault e hwrite]
      exact .of_fault e
    | ok m =>
      have hnext := ih (done ++ [p]) (storeData m s) (hs.touches (writeData_touches m s))
      rw [List.append_assoc, List.singleton_append, show (done ++ [p]).length = done.length + 1 by simp] at hnext
      rw [hstored m hwrite, storeData_ignoresPorts m s, State.inFlight_goOn]
      exact hnext

/-- The body of `QEN`, by what its write gives. -/
theorem enqueue_eq (g : Family) (b : Block) (s : State) :
    enqueue g b s =
      if b = [] ∨ s.cfg.frameMax < b.length then .ok (.widthErr, s)
      else if queueFull s then .ok (.qFull, s)
      else (slotWriteBlock s.cfg s.q.data s.q.wc 0 b).map fun m =>
        (.ok, commitEnqueue b.length (writeHeader g b.length (storeData m s))) := by
  unfold enqueue
  split_ifs
  · rfl
  · rfl
  · cases slotWriteBlock s.cfg s.q.data s.q.wc 0 b <;> rfl

/-- An enqueue from its first step on. -/
theorem finishes_beginEnqueue (caller : EnqueueFor) (g : Family) (b : Block) {s : State} (hs : Landed s) :
    FinishesAs (beginEnqueue caller g b s) (finishEnqueue caller (enqueue g b s)) := by
  rw [enqueue_eq, beginEnqueue]
  split_ifs
  · exact finishes_endEnqueue caller _ hs
  · exact finishes_endEnqueue caller _ hs
  · exact finishes_enqWrite caller g b [] s hs

/-! The operations that are more than one step. -/

/-- The steps of an operation that the checks let run, or that they refuse. -/
theorem FinishesAs.gate {s : State} (hs : Landed s) {row : Row} {first whole : State → Result}
    (h : FinishesAs (first s) (whole s)) : FinishesAs (s.gate row first) (s.gate row whole) := by
  unfold State.gate
  split
  · split
    · exact h
    · exact .of_respond hs _
  · exact .of_respond hs _

/-- The steps of `QEN`. -/
theorem finishes_qen (g : Family) (b : Block) {s : State} (hs : Landed s) :
    FinishesAs (begin (.qen g b) s) (exec (.qen g b) s) := by
  rw [begin, exec, execQen]
  refine .gate hs ?_
  have hfinish := finishes_beginEnqueue .command g b hs
  cases henqueue : enqueue g b s with
  | error e => rwa [henqueue] at hfinish
  | ok answer =>
    obtain ⟨st, u⟩ := answer
    rw [henqueue] at hfinish
    have hu : Landed u := hs.touches (enqueue_touches henqueue)
    simpa only [finishEnqueue, endEnqueue, hu.land_eq] using hfinish

/-- The steps of `QDE`. -/
theorem finishes_qde {s : State} (hs : Landed s) : FinishesAs (begin .qde s) (exec .qde s) := by
  rw [begin, exec, execQde]
  refine .gate hs ?_
  have hfinish := finishes_beginDequeue .command hs
  cases hdequeue : dequeue s with
  | error e => rwa [hdequeue] at hfinish
  | ok answer =>
    obtain ⟨o, u⟩ := answer
    rw [hdequeue] at hfinish
    cases o <;> exact hfinish

/-- The two steps of `FBU`. -/
theorem finishes_fbu (tick : Word) {s : State} (hs : Landed s) : FinishesAs (begin (.fbu tick) s) (exec (.fbu tick) s) := by
  rw [begin, exec, execFbu]
  refine .gate hs (.of_goOn ?_)
  rw [advance, State.inFlight_land hs]
  exact .of_respond (hs.touches (updateFeedback_touches tick s.q.total s)) _

/-- The enqueue of a producer cycle. -/
theorem finishes_pcyEnqueue (feedback : Status) (rate : Rate) {y : Block} (hy : y ≠ []) {s : State} (hs : Landed s) :
    FinishesAs (s.goOn (.pcyEnqueue rate y feedback)) (answerCycle feedback (enqueueCycle rate y s)) := by
  have hbegin (f : Flight) : beginEnqueue (.cycle feedback) rate.family y (s.inFlight f) =
      beginEnqueue (.cycle feedback) rate.family y s := by
    simp only [beginEnqueue, queueFull, endEnqueue_inFlight _ _ hs, State.inFlight_cfg, State.inFlight_q,
      State.inFlight_goOn]
  have hfinish := finishes_beginEnqueue (.cycle feedback) rate.family y hs
  refine .of_goOn ?_
  rw [advance, hbegin, enqueueCycle, if_neg hy]
  cases henqueue : enqueue rate.family y s with
  | error e => rwa [henqueue] at hfinish
  | ok answer =>
    obtain ⟨st, u⟩ := answer
    rw [henqueue] at hfinish
    have hu : Landed u := hs.touches (enqueue_touches henqueue)
    simpa only [finishEnqueue, endEnqueue, hu.land_eq, answerCycle] using hfinish

/-- Lines 5 to 9 of a producer cycle. -/
theorem finishes_pcyOversample (tick : Word) (rate : Rate) (x : Block) {s : State} (hs : Landed s) :
    FinishesAs (s.goOn (.pcyOversample tick rate x s.q.occ)) (processBlock tick rate x s) := by
  have hignores : IgnoresPorts fun s' => (runCascade rate x s').1 := by
    intro s f
    cases s
    cases ‹Port› <;> rfl
  have hblock (f : Flight) : (oversampleForQueue rate x s.q.occ (s.inFlight f)).2 =
      (oversampleForQueue rate x s.q.occ s).2 := by
    cases s
    cases ‹Port› <;> rfl
  have hrun : Landed (runCascade rate x s).1 := hs.touches (runCascade_touches rate x s)
  rw [processBlock_eq]
  refine .of_body hignores (f' := .pcyTotal tick rate (oversampleForQueue rate x s.q.occ s).2)
    (by rw [advance, hblock]; rfl) ?_
  generalize (oversampleForQueue rate x s.q.occ s).2 = y
  change FinishesAs ((runCascade rate x s).1.goOn _) (answerCycle (updateFeedback tick (runCascade rate x s).1.q.total
    (runCascade rate x s).1).1 (enqueueCycle rate y (updateFeedback tick (runCascade rate x s).1.q.total
    (runCascade rate x s).1).2))
  generalize (runCascade rate x s).1 = v at hrun
  refine .of_goOn ?_
  rw [advance, State.inFlight_goOn, State.inFlight_q]
  refine .of_goOn ?_
  have hupdate : Landed (updateFeedback tick v.q.total v).2 := hrun.touches (updateFeedback_touches tick _ v)
  rw [advance, stepCycleUpdate, updateFeedback_inFlight]
  dsimp only
  split
  case isTrue hy =>
    rw [State.inFlight_land hupdate, enqueueCycle, if_pos hy]
    exact .of_respond hupdate _
  case isFalse hy =>
    rw [State.inFlight_goOn]
    exact finishes_pcyEnqueue _ rate hy hupdate

/-- Lines 2 to 9 of a producer cycle. -/
theorem finishes_pcyOccupancy (tick : Word) (raw : Block) {s : State} (hs : Landed s) :
    FinishesAs (s.goOn (.pcyOccupancy tick raw)) (cycleBody tick raw s) := by
  refine .of_goOn ?_
  rw [advance, stepCycleOccupancy, cycleBody, activeFormat_inFlight, State.inFlight_cfg, State.inFlight_land hs,
    State.inFlight_q]
  cases activeFormat s with
  | none => exact .of_respond hs _
  | some format =>
    obtain ⟨rate, depth⟩ := format
    by_cases hwide : s.cfg.frameMax < raw.length * 2 ^ rate.stages
    · simp only [if_pos hwide]
      exact .of_respond hs _
    · simp only [if_neg hwide, State.inFlight_goOn]
      exact finishes_pcyOversample tick rate _ hs

/-- The steps of `PCY`. -/
theorem finishes_pcy (tick : Word) (raw : Block) {s : State} (hs : Landed s) :
    FinishesAs (begin (.pcy tick raw) s) (exec (.pcy tick raw) s) := by
  rw [begin, exec, execPcy]
  refine .gate hs ?_
  have htaken : Landed (takeUpdated s) := hs.touches (takeUpdated_touches s)
  unfold beginCycle takeSignal
  split
  · refine .of_body zeroCascade_ignoresPorts (f' := .pcyAsk tick raw) rfl ?_
    have hzeroed : Landed (zeroCascade (takeUpdated s)) := htaken.touches (zeroCascade_touches _)
    refine .of_body (body := askModulatorReset) (f' := .pcyFeedback tick raw) (fun s f => ?_) rfl ?_
    · cases s
      cases ‹Port› <;> rfl
    have hasked := hzeroed.touches (askModulatorReset_touches _)
    refine .of_body configureFeedback_ignoresPorts (f' := .pcyOccupancy tick raw) rfl ?_
    exact finishes_pcyOccupancy tick raw (hasked.touches (configureFeedback_touches _))
  · exact finishes_pcyOccupancy tick raw htaken

/-- Line 4 of a consumer cycle and what follows. -/
theorem finishes_ccyDequeue {s : State} (hs : Landed s) : FinishesAs (s.goOn .ccyDequeue) (playFrame s) := by
  have hbegin (f : Flight) : beginDequeue .cycle (s.inFlight f) = beginDequeue .cycle s := by
    unfold beginDequeue
    simp only [State.inFlight_q, State.inFlight_land hs, hs.land_eq, State.inFlight_goOn]
  have hplay : playFrame s = finishDequeue .cycle (dequeue s) := by
    unfold playFrame
    split <;> rename_i heq <;> rw [heq] <;> rfl
  refine .of_goOn ?_
  rw [advance, hbegin, hplay]
  exact finishes_beginDequeue .cycle hs

/-- Lines 2 to 5 of a consumer cycle. -/
theorem finishes_ccyMute {s : State} (hs : Landed s) : FinishesAs (s.goOn .ccyMute) (muteAndPlay s) := by
  have henterMute : IgnoresPorts enterMute := by
    intro s f
    cases s
    cases ‹Port› <;> rfl
  have hleaveMute : IgnoresPorts leaveMute := by
    intro s f
    cases s
    cases ‹Port› <;> rfl
  have hzero : IgnoresPorts zeroModulator := by
    intro s f
    cases s
    cases ‹Port› <;> rfl
  refine .of_goOn ?_
  rw [advance, stepMute, muteAndPlay]
  simp only [entersMute, State.inFlight_mute, State.inFlight_q, State.inFlight_cfg, State.inFlight_goOn]
  split_ifs
  · rw [henterMute, State.inFlight_goOn, encodeAndFinish_eq]
    have hentered := hs.touches (enterMute_touches s)
    refine .of_body hzero (f' := .ccyEncode (silence s.cfg) [] .qEmpty) (by simp [advance]) ?_
    exact finishes_ccyEncode .qEmpty _ [] _ (hentered.touches (zeroModulator_touches _))
  · exact finishes_ccyDequeue hs
  · rw [hleaveMute, State.inFlight_goOn]
    exact finishes_ccyDequeue (hs.touches (leaveMute_touches s))
  · rw [encodeAndFinish_eq]
    exact finishes_ccyEncode .qEmpty _ [] _ hs

/-- The steps of `CCY`. -/
theorem finishes_ccy {s : State} (hs : Landed s) :
    FinishesAs (begin .ccy s) (exec .ccy s) := by
  rw [begin, exec, execCcy]
  refine .gate hs ?_
  have htaken : Landed (takeResetRequest s) := hs.touches (takeResetRequest_touches s)
  unfold beginConsume honourResetRequest
  split
  · refine .of_body (body := zeroModulator) (f' := .ccyMute) (fun s f => ?_) rfl ?_
    · cases s
      cases ‹Port› <;> rfl
    · exact finishes_ccyMute (htaken.touches (zeroModulator_touches _))
  · exact finishes_ccyMute htaken

/-- An operation that is one step finishes with it. -/
theorem finishes_exec (i : Instr) {s : State} (hs : Landed s) : FinishesAs (exec i s) (exec i s) := by
  obtain ⟨e, he⟩ | ⟨t, ht, st, outLen, words, stream, draws, hends, -, -⟩ := exec_completes i s
  · rw [he]
    exact .of_fault e
  · rw [ht]
    exact .of_landed (by rw [Landed, hends.issuer, hends.flight, hs])

/-- Settles O8: the steps of each operation, from its last step back to its first. -/
theorem wholeOperationIsItsSteps : Obligations.WholeOperationIsItsSteps := by
  have oneStep (i : Instr) (s : State) (hi : i.row ∉ [Row.qen, .qde, .fbu, .pcy, .ccy]) : begin i s = exec i s := by
    cases i
    case qen | qde | fbu | pcy | ccy => simp [Instr.row] at hi
    all_goals rfl
  refine ⟨oneStep, fun i s hs => ?_⟩
  change FinishesAs (begin i s) (exec i s)
  by_cases hi : i.row ∈ [Row.qen, .qde, .fbu, .pcy, .ccy]
  · cases i <;> simp [Instr.row] at hi
    case qen g b => exact finishes_qen g b hs
    case qde => exact finishes_qde hs
    case fbu tick => exact finishes_fbu tick hs
    case pcy tick raw => exact finishes_pcy tick raw hs
    case ccy => exact finishes_ccy hs
  · rw [oneStep i s hi]
    exact finishes_exec i hs

end Sys2Proof.Machine
end

section
/-! The format validator's search and its signal (spec/40_format_validator.md). -/

namespace Sys2Proof.Machine

/-! The lowest rate within the tolerance (R121). -/

/-- In a list that rises by a key a search finds the member with the lowest key that fits. -/
theorem find?_eq_some_iff_of_rising {α : Type} {p : α → Bool} {key : α → Nat} {a : α} {l : List α}
    (hrising : l.Pairwise (key · < key ·)) :
    l.find? p = some a ↔ a ∈ l ∧ p a = true ∧ ∀ b ∈ l, key b < key a → p b = false := by
  induction l with
  | nil => simp
  | cons x l ih =>
    obtain ⟨hx, hl⟩ := List.pairwise_cons.mp hrising
    cases hp : p x with
    | true =>
      rw [List.find?_cons_of_pos hp]
      constructor
      · rintro h
        obtain rfl : x = a := Option.some.inj h
        refine ⟨List.mem_cons_self, hp, fun b hb hlt => ?_⟩
        obtain rfl | hb := List.mem_cons.mp hb
        · omega
        · have := hx b hb
          omega
      · rintro ⟨ha, -, hlowest⟩
        obtain rfl | ha := List.mem_cons.mp ha
        · rfl
        · simp [hlowest x List.mem_cons_self (hx a ha)] at hp
    | false =>
      rw [List.find?_cons_of_neg (by simp [hp]), ih hl]
      constructor
      · rintro ⟨ha, hpa, hlowest⟩
        refine ⟨List.mem_cons_of_mem x ha, hpa, fun b hb hlt => ?_⟩
        obtain rfl | hb := List.mem_cons.mp hb
        · exact hp
        · exact hlowest b hb hlt
      · rintro ⟨ha, hpa, hlowest⟩
        obtain rfl | ha := List.mem_cons.mp ha
        · simp [hp] at hpa
        · exact ⟨ha, hpa, fun b hb => hlowest b (List.mem_cons_of_mem x hb)⟩

/-- Whether the measured word clock lies within `tol` parts per million of a rate (R121). -/
def Within (cfg : Config) (tol : Nat) (ww : Word) (r : Rate) : Prop :=
  ((cfg.fRef : Int) * cfg.fvWordPeriods - r.hz * ww.toNat).natAbs * 1000000 ≤ tol * r.hz * ww.toNat

/-- The model's test of a rate is that inequality at `FV_TOL_PPM`. -/
theorem rateMatches_iff {cfg : Config} {ww : Word} {r : Rate} :
    rateMatches cfg ww.toNat r = true ↔ Within cfg cfg.fvTolPpm ww r := by
  simp [rateMatches, Within]

/-- The candidate rate is the lowest one within the tolerance. -/
theorem candRate_eq_some {cfg : Config} {ww : Word} (hww : ww ≠ 0) {r : Rate} :
    candRate cfg ww = some r ↔
      Within cfg cfg.fvTolPpm ww r ∧ ∀ r' : Rate, r'.code < r.code → ¬ Within cfg cfg.fvTolPpm ww r' := by
  have hrising : Rate.all.Pairwise (fun a b => a.code.toNat < b.code.toNat) := by decide
  rw [candRate, if_neg hww, find?_eq_some_iff_of_rising hrising, rateMatches_iff]
  constructor
  · rintro ⟨-, hr, hlowest⟩
    exact ⟨hr, fun r' hlt hr' =>
      Bool.eq_false_iff.mp (hlowest r' (Rate.mem_all r') hlt) (rateMatches_iff.mpr hr')⟩
  · rintro ⟨hr, hlowest⟩
    exact ⟨Rate.mem_all r, hr, fun r' _ hlt => Bool.eq_false_iff.mpr fun h => hlowest r' hlt (rateMatches_iff.mp h)⟩

/-- Two rates lie further apart than 42000 parts per million of each. -/
theorem Rate.hz_apart : ∀ r ∈ Rate.all, ∀ r' ∈ Rate.all, r.hz < r'.hz →
    41999 * (r.hz + r'.hz) < (r'.hz - r.hz) * 1000000 := by
  decide

/-- No clock lies within less than 42000 parts per million of a rate and of a higher one. -/
theorem not_within_of_lt {cfg : Config} {tol : Nat} {ww : Word} {r r' : Rate} (htol : tol < 42000) (hww : ww ≠ 0)
    (hlt : r.hz < r'.hz) (h : Within cfg tol ww r) (h' : Within cfg tol ww r') : False := by
  have hwidth : 0 < ww.toNat := Nat.pos_of_ne_zero (BitVec.toNat_ne.mp hww)
  have hapart := Rate.hz_apart r (Rate.mem_all r) r' (Rate.mem_all r') hlt
  unfold Within at h h'
  generalize (cfg.fRef : Int) * cfg.fvWordPeriods = n at h h'
  generalize r.hz = a at *
  generalize r'.hz = b at *
  generalize ww.toNat = w at *
  have hbound (c : Nat) : tol * c * w ≤ 41999 * c * w := Nat.mul_le_mul_right w (Nat.mul_le_mul_right c (by omega))
  have hlow := h.trans (hbound a)
  have hhigh := h'.trans (hbound b)
  have hclocks : ((b : Int) - a) * w * 1000000 ≤ 41999 * (a + b) * w := by
    have h1 : (n - a * w) * 1000000 ≤ 41999 * a * w := by
      have : ((n - a * w).natAbs : Int) * 1000000 ≤ 41999 * a * w := by exact_mod_cast hlow
      have := Int.le_natAbs (a := n - a * w)
      omega
    have h2 : (b * w - n) * 1000000 ≤ 41999 * b * w := by
      have : ((n - b * w).natAbs : Int) * 1000000 ≤ 41999 * b * w := by exact_mod_cast hhigh
      have := Int.le_natAbs (a := -(n - b * w))
      rw [Int.natAbs_neg] at this
      omega
    linarith
  have hapart' : 41999 * ((a : Int) + b) < (b - a) * 1000000 := by omega
  have hscaled := mul_lt_mul_of_pos_right hapart' (show (0 : Int) < w by exact_mod_cast hwidth)
  linarith

/-- Settles O14: the search runs by rising code, and the rates lie too far apart for two to fit. -/
theorem candidateRate : Obligations.CandidateRate := by
  refine ⟨fun cfg => by simp [candRate], fun cfg ww hww r => candRate_eq_some hww,
    fun cfg tol ww r r' htol hww h h' => ?_⟩
  obtain hlt | heq | hgt := Nat.lt_trichotomy r.hz r'.hz
  · exact (not_within_of_lt htol hww hlt h h').elim
  · exact Rate.hz_injective heq
  · exact (not_within_of_lt htol hww hgt h' h).elim

/-! The signal over a sequence of observations (R123, R125). -/

/-- How `FVO` ends: the candidates are stored, and the format and the signal follow the observation. -/
theorem fvo_ends {s : State} (h : Ready .p s) (ww bw : Word) :
    ∃ t, exec (.fvo ww bw) s = .next t ∧ Ready .p t ∧ t.cfg = s.cfg ∧
      t.fv.prevRate = candRate s.cfg ww ∧ t.fv.prevDepth = candDepth s.cfg ww bw ∧
      t.fmt = (observe (candRate s.cfg ww) (candDepth s.cfg ww bw) s).fmt ∧
      t.fv.updated = (observe (candRate s.cfg ww) (candDepth s.cfg ww bw) s).fv.updated ∧
      t.portP.output = s.portP.output ++
        [statusWord (if observationOk (candRate s.cfg ww) (candDepth s.cfg ww bw) s then .ok else .formatErr) 0,
          fmtWord t] := by
  have hexec := exec_fvo_ready h ww bw
  generalize candRate s.cfg ww = cr, candDepth s.cfg ww bw = cd at hexec ⊢
  have hends := Ends.of_observe cr cd s (if observationOk cr cd s then .ok else .formatErr) [fmtWord (observe cr cd s)]
  exact ⟨_, hexec, hends.ready (by decide) h, hends.configuration, by simp, by simp, by simp, by simp, by
    rw [hends.portP_output h.1, fmtWord_respond]⟩

/-- How `FVT` ends, for a sequence. -/
theorem fvt_takes {s : State} (h : Ready .p s) :
    ∃ t, exec .fvt s = .next t ∧ Ready .p t ∧ t.cfg = s.cfg ∧ t.fmt = s.fmt ∧ t.fv = { s.fv with updated := false } ∧
      t.portP.output = s.portP.output ++ [statusWord .ok 0, flagWord s.fv.updated] := by
  obtain ⟨t, hexec, hcleared, hends, -⟩ := fvt_ends h
  obtain ⟨hrate, hdepth⟩ := hends.rest .fvPrev (by decide)
  refine ⟨t, hexec, hends.ready (by decide) h, hends.configuration, hends.rest .fmt (by decide), ?_,
    hends.portP_output h.1⟩
  cases ht : t.fv
  rw [ht] at hrate hdepth hcleared
  simp_all

/-- Two equal observations with whole candidates raise the signal, and a third does not. -/
theorem signal_of_equal_observations {s : State} {ww bw : Word} (hs : Ready .p s) (hinvalid : s.fmt.valid = false)
    (hrate : candRate s.cfg ww ≠ none) (hdepth : candDepth s.cfg ww bw ≠ none) :
    ∃ t f1 f2 f3 st, execAll [.fvo ww bw, .fvo ww bw, .fvt, .fvo ww bw, .fvt] s = .next t ∧
      t.fmt = { rate := candRate s.cfg ww, depth := candDepth s.cfg ww bw, valid := true } ∧
      t.portP.output = s.portP.output ++
        [statusWord st 0, f1, statusWord .ok 0, f2, statusWord .ok 0, 1, statusWord .ok 0, f3, statusWord .ok 0, 0] := by
  obtain ⟨s1, exec1, hs1, cfg1, rate1, depth1, fmt1, updated1, out1⟩ := fvo_ends hs ww bw
  obtain ⟨s2, exec2, hs2, cfg2, rate2, depth2, fmt2, updated2, out2⟩ := fvo_ends hs1 ww bw
  obtain ⟨s3, exec3, hs3, cfg3, fmt3, fv3, out3⟩ := fvt_takes hs2
  obtain ⟨s4, exec4, hs4, -, -, -, fmt4, updated4, out4⟩ := fvo_ends hs3 ww bw
  obtain ⟨s5, exec5, -, -, fmt5, -, out5⟩ := fvt_takes hs4
  rw [cfg3, cfg2, cfg1] at fmt4 updated4 out4
  rw [cfg1] at fmt2 updated2 rate2 depth2 out2
  generalize candRate s.cfg ww = cr, candDepth s.cfg ww bw = cd at *
  have hok2 : observationOk cr cd s1 = true := observationOk_iff.mpr ⟨hrate, hdepth, rate1.symm, depth1.symm⟩
  have hok4 : observationOk cr cd s3 = true :=
    observationOk_iff.mpr ⟨hrate, hdepth, by rw [fv3, rate2], by rw [fv3, depth2]⟩
  obtain ⟨hraise, hkeep⟩ := observe_good hok2
  have hfirst : s1.fmt.valid = false ∨ (s1.fmt = ⟨cr, cd, true⟩ ∧ s1.fv.updated = true) := by
    cases hok1 : observationOk cr cd s with
    | true =>
      obtain ⟨hfmt, hupdated⟩ := (observe_good hok1).1 hinvalid
      exact .inr ⟨fmt1.trans hfmt, updated1.trans hupdated⟩
    | false => exact .inl (by rw [fmt1, (observe_bad hok1).1])
  have hsecond : s2.fmt = ⟨cr, cd, true⟩ ∧ s2.fv.updated = true := by
    rw [fmt2, updated2]
    obtain hno | ⟨hfmt, hupdated⟩ := hfirst
    · exact hraise hno
    · obtain ⟨hfmt', hupdated'⟩ := hkeep (by rw [hfmt])
      exact ⟨hfmt'.trans hfmt, hupdated'.trans hupdated⟩
  obtain ⟨hfmt2, hupdated2⟩ := hsecond
  obtain ⟨hfmt4, hupdated4⟩ := (observe_good hok4).2 (by rw [fmt3, hfmt2])
  refine ⟨s5, fmtWord s1, fmtWord s2, fmtWord s4, if observationOk cr cd s then .ok else .formatErr, ?_, ?_, ?_⟩
  · rw [execAll_cons exec1, execAll_cons exec2, execAll_cons exec3, execAll_cons exec4, execAll_cons exec5, execAll]
  · rw [fmt5, fmt4, hfmt4, fmt3, hfmt2]
  · rw [out5, out4, out3, out2, out1, updated4, hupdated4, hok2, hok4, hupdated2, fv3]
    simp [flagWord]

/-- Two observations with different candidates raise nothing and leave the format invalid. -/
theorem signal_of_different_observations {s : State} {ww bw ww' bw' : Word} (hs : Ready .p s)
    (hdiffer : candRate s.cfg ww ≠ candRate s.cfg ww' ∨ candDepth s.cfg ww bw ≠ candDepth s.cfg ww' bw') :
    ∃ t f1 f2 b st, execAll [.fvo ww bw, .fvt, .fvo ww' bw', .fvt] s = .next t ∧
      t.fmt.valid = false ∧
      t.portP.output = s.portP.output ++
        [statusWord st 0, f1, statusWord .ok 0, b, statusWord .formatErr 0, f2, statusWord .ok 0, 0] := by
  obtain ⟨s1, exec1, hs1, cfg1, rate1, depth1, -, -, out1⟩ := fvo_ends hs ww bw
  obtain ⟨s2, exec2, hs2, cfg2, -, fv2, out2⟩ := fvt_takes hs1
  obtain ⟨s3, exec3, hs3, -, -, -, fmt3, updated3, out3⟩ := fvo_ends hs2 ww' bw'
  obtain ⟨s4, exec4, -, -, fmt4, -, out4⟩ := fvt_takes hs3
  have hbad : observationOk (candRate s2.cfg ww') (candDepth s2.cfg ww' bw') s2 = false := by
    refine Bool.eq_false_iff.mpr fun hok => ?_
    obtain ⟨-, -, hrate, hdepth⟩ := observationOk_iff.mp hok
    rw [fv2, cfg2, cfg1] at hrate hdepth
    exact hdiffer.elim (fun hne => hne (rate1.symm.trans hrate.symm)) fun hne => hne (depth1.symm.trans hdepth.symm)
  obtain ⟨hfmt, hupdated⟩ := observe_bad hbad
  refine ⟨s4, fmtWord s1, fmtWord s3, flagWord s1.fv.updated,
    if observationOk (candRate s.cfg ww) (candDepth s.cfg ww bw) s then .ok else .formatErr, ?_, ?_, ?_⟩
  · rw [execAll_cons exec1, execAll_cons exec2, execAll_cons exec3, execAll_cons exec4, execAll]
  · rw [fmt4, fmt3, hfmt]
  · rw [out4, out3, out2, out1, updated3, hupdated, hbad, fv2]
    simp [flagWord]

/-- Settles O20: by the observations one after the other. -/
theorem signalIsRaisedOnce : Obligations.SignalIsRaisedOnce :=
  ⟨fun _ _ _ hs hinvalid hrate hdepth => signal_of_equal_observations hs hinvalid hrate hdepth,
    fun _ _ _ _ _ hs hdiffer => signal_of_different_observations hs hdiffer⟩

end Sys2Proof.Machine
end

section
/-! The oversampling cascade over blocks: `OSS`, `OSA` and their resets (spec/41_oversampling_cascade.md sections 3, 4
and 7). -/

namespace Sys2Proof

/-- A stage index below 3 names a stage. -/
theorem Stage.ofIndex_isSome_of_lt {a : BitVec 4} (h : a.toNat < 3) : ∃ st, Stage.ofIndex a = some st := by
  obtain hnone | ⟨st, hst⟩ := (Stage.ofIndex a).eq_none_or_eq_some
  · exact absurd (Stage.ofIndex_eq_none_iff.mp hnone) (by omega)
  · exact ⟨st, hst⟩

/-- Codes 0 and 9 to 15 are no rate (R96). -/
theorem Rate.ofCode_eq_none {c : BitVec 4} (h : c = 0 ∨ 8 < c.toNat) : Rate.ofCode c = none := by
  revert c
  decide

/-- The stages that a rate uses are different ones. -/
theorem Stage.firstStages_nodup (r : Rate) : (Stage.firstStages r.stages).Nodup := by
  cases r <;> decide

/-- A rate uses three stages at most. -/
theorem Rate.stages_le (r : Rate) : r.stages ≤ 3 := by
  cases r <;> decide

namespace Machine

/-! What a cascade does to a record of stages. -/

/-- Two stages are replaced in either order. -/
theorem PerStage.set_set_comm {α : Type} (t : PerStage α) {s s' : Stage} (h : s ≠ s') (v w : α) :
    (t.set s v).set s' w = (t.set s' w).set s v := by
  refine PerStage.ext_get fun s'' => ?_
  by_cases hs : s'' = s
  · rw [hs, PerStage.get_set_same, PerStage.get_set_other _ _ h, PerStage.get_set_same]
  · rw [PerStage.get_set_other _ _ hs]
    by_cases hs' : s'' = s'
    · rw [hs', PerStage.get_set_same, PerStage.get_set_same]
    · rw [PerStage.get_set_other _ _ hs', PerStage.get_set_other _ _ hs', PerStage.get_set_other _ _ hs]

/-- Of two replacements of a stage the second holds. -/
theorem PerStage.set_set {α : Type} (t : PerStage α) (s : Stage) (v w : α) : (t.set s v).set s w = t.set s w := by
  cases s <;> rfl

/-- A stage that a cascade does not use is carried along. -/
theorem cascadeBlock_set (cfg : Config) {ss : List Stage} {s : Stage} (hs : s ∉ ss) (v : FilterState) :
    ∀ (os : PerStage FilterState) (b : Block), cascadeBlock cfg (os.set s v) ss b =
      ((cascadeBlock cfg os ss b).1.set s v, (cascadeBlock cfg os ss b).2) := by
  induction ss with
  | nil => exact fun os b => rfl
  | cons s' ss ih =>
    intro os b
    rw [List.mem_cons, not_or] at hs
    obtain ⟨hne, hss⟩ := hs
    simp only [cascadeBlock]
    rw [PerStage.get_set_other _ _ (Ne.symm hne), PerStage.set_set_comm _ hne, ih hss]

/-- A cascade of different stages does not see where its input is cut (R144). -/
theorem cascadeBlock_append (cfg : Config) {ss : List Stage} (hss : ss.Nodup) :
    ∀ (os : PerStage FilterState) (x y : Block), cascadeBlock cfg os ss (x ++ y) =
      ((cascadeBlock cfg (cascadeBlock cfg os ss x).1 ss y).1,
        (cascadeBlock cfg os ss x).2 ++ (cascadeBlock cfg (cascadeBlock cfg os ss x).1 ss y).2) := by
  induction ss with
  | nil => exact fun os x y => rfl
  | cons s ss ih =>
    intro os x y
    obtain ⟨hs, hss⟩ := List.nodup_cons.mp hss
    simp only [cascadeBlock, stageBlock_append]
    rw [ih hss, cascadeBlock_other _ _ _ hs, PerStage.get_set_same,
      cascadeBlock_set cfg hs _ os, cascadeBlock_set cfg hs _ os, PerStage.set_set]

/-- What a cascade does depends on its own stages alone. -/
theorem cascadeBlock_congr (cfg : Config) {ss : List Stage} : ∀ {os os' : PerStage FilterState} (b : Block),
    (∀ st ∈ ss, os'.get st = os.get st) →
    (cascadeBlock cfg os' ss b).2 = (cascadeBlock cfg os ss b).2 ∧
      ∀ st ∈ ss, (cascadeBlock cfg os' ss b).1.get st = (cascadeBlock cfg os ss b).1.get st := by
  induction ss with
  | nil => exact fun b _ => ⟨rfl, by simp⟩
  | cons s ss ih =>
    intro os os' b hsame
    simp only [cascadeBlock]
    rw [hsame s List.mem_cons_self]
    generalize stageBlock cfg.clampBound (cfg.stage.get s) (os.get s) b = r
    obtain ⟨hblock, hstages⟩ := ih (os := os.set s r.1) (os' := os'.set s r.1) r.2 fun st hst => by
      by_cases heq : st = s
      · rw [heq, PerStage.get_set_same, PerStage.get_set_same]
      · rw [PerStage.get_set_other _ _ heq, PerStage.get_set_other _ _ heq, hsame st (List.mem_cons_of_mem s hst)]
    refine ⟨hblock, fun st hst => ?_⟩
    by_cases hmem : st ∈ ss
    · exact hstages st hmem
    · obtain rfl : st = s := (List.mem_cons.mp hst).resolve_right hmem
      rw [cascadeBlock_other _ _ _ hmem, cascadeBlock_other _ _ _ hmem, PerStage.get_set_same, PerStage.get_set_same]

/-! `OSS` and `OSA` as operations of the `P` port. -/

/-- `OSS` of a stage over a block that fits (R143). -/
theorem oss_ends {s : State} (hs : Ready .p s) {a : BitVec 4} {st : Stage} (ha : Stage.ofIndex a = some st) {b : Block}
    (hfits : 2 * b.length ≤ s.cfg.frameMax) :
    ∃ t, exec (.oss a b) s = .next t ∧
      t.os = s.os.set st (stageBlock s.cfg.clampBound (s.cfg.stage.get st) (s.os.get st) b).1 ∧
      Ends [.stage st] (statusWord .ok (2 * b.length) ::
        Block.words (stageBlock s.cfg.clampBound (s.cfg.stage.get st) (s.os.get st) b).2) [] 0 s t := by
  refine ⟨(runStage st b s).1.respond (Reply.withBlock [] (runStage st b s).2), ?_, by simp [runStage],
    Ends.of_cascade s _ (fun st' hst' => ?_) ?_⟩
  · rw [exec, execOss, State.gate_ready hs (by decide), ha]
    exact if_neg (Nat.not_lt.mpr hfits)
  · have hother : st' ≠ st := fun e => hst' (by simp [e])
    exact PerStage.get_set_other _ _ hother
  · rw [Reply.words_withBlock, runStage, stageBlock_length, List.nil_append]

/-- `OSA` at a rate over a block that fits (R144). -/
theorem osa_ends {s : State} (hs : Ready .p s) {r : Rate} {b : Block}
    (hfits : b.length * 2 ^ r.stages ≤ s.cfg.frameMax) :
    ∃ t, exec (.osa r.code b) s = .next t ∧
      t.os = (cascadeBlock s.cfg s.os (Stage.firstStages r.stages) b).1 ∧
      Ends ((Stage.firstStages r.stages).map .stage) (statusWord .ok (b.length * 2 ^ r.stages) ::
        Block.words (cascadeBlock s.cfg s.os (Stage.firstStages r.stages) b).2) [] 0 s t := by
  refine ⟨(runCascade r b s).1.respond (Reply.withBlock [] (runCascade r b s).2), ?_, by simp [runCascade],
    Ends.of_cascade s _ (fun st' hst' => ?_) ?_⟩
  · rw [exec, execOsa, State.gate_ready hs (by decide), Rate.ofCode_code]
    exact if_neg (Nat.not_lt.mpr hfits)
  · exact cascadeBlock_other _ _ _ fun hmem => hst' (List.mem_map_of_mem hmem)
  · rw [Reply.words_withBlock, runCascade, cascadeBlock_length, Stage.firstStages_length, List.nil_append, Nat.mul_comm]

/-- Settles O23: the stage's step loop, and the two refusals. -/
theorem ossRunsOneStage : Obligations.OssRunsOneStage := by
  refine ⟨fun s a st b hs ha _ hfits => ?_, fun s a b hs ha => ?_, fun s a b hs ha hwide => ?_⟩
  · obtain ⟨t, hexec, hos, hends⟩ := oss_ends hs ha hfits
    exact ⟨t, hexec, by rw [hos, PerStage.get_set_same], stageBlock_length _ _ _ _, hends⟩
  · refine ⟨_, ?_, Ends.of_raise s .illegal []⟩
    rw [exec, execOss, State.gate_ready hs (by decide), Stage.ofIndex_eq_none_iff.mpr ha]
    rfl
  · obtain ⟨st, hst⟩ := Stage.ofIndex_isSome_of_lt ha
    refine ⟨_, ?_, Ends.of_raise s .widthErr []⟩
    rw [exec, execOss, State.gate_ready hs (by decide), hst]
    exact if_pos hwide

/-- Settles O26: the stages of the rate in order, and the two refusals. -/
theorem osaRunsTheActiveStages : Obligations.OsaRunsTheActiveStages := by
  refine ⟨?_, fun s rc b hs hrc => ?_, ?_⟩
  · rintro s rc r b hs rfl hfits
    obtain ⟨t, hexec, hos, hends⟩ := osa_ends hs hfits
    refine ⟨t, hexec, hos, ?_, fun hnone => ?_, hends⟩
    · rw [cascadeBlock_length, Stage.firstStages_length, Nat.mul_comm]
    · obtain hzero | rfl := hnone
      · rw [hzero]
        rfl
      · exact cascadeBlock_nil _ _ _
  · refine ⟨_, ?_, Ends.of_raise s .formatErr []⟩
    rw [exec, execOsa, State.gate_ready hs (by decide), Rate.ofCode_eq_none hrc]
    rfl
  · rintro s rc r b hs rfl hwide
    refine ⟨_, ?_, Ends.of_raise s .widthErr []⟩
    rw [exec, execOsa, State.gate_ready hs (by decide), Rate.ofCode_code]
    exact if_pos hwide

/-! `OSA` against its parts. -/

/-- What `OSS` of a stage leaves for the next operation. -/
theorem oss_answers {s : State} (hs : Ready .p s) {a : BitVec 4} {st : Stage} (ha : Stage.ofIndex a = some st)
    {b : Block} (hfits : 2 * b.length ≤ s.cfg.frameMax) {r : FilterState × Block}
    (hr : stageBlock s.cfg.clampBound (s.cfg.stage.get st) (s.os.get st) b = r) :
    ∃ t, exec (.oss a b) s = .next t ∧ Ready .p t ∧ t.cfg = s.cfg ∧ t.os = s.os.set st r.1 ∧
      t.portP.output = s.portP.output ++ statusWord .ok r.2.length :: r.2.words := by
  subst hr
  obtain ⟨t, hexec, hos, hends⟩ := oss_ends hs ha hfits
  exact ⟨t, hexec, hends.ready (by simp) hs, hends.configuration, hos, by
    rw [hends.portP_output hs.1, stageBlock_length]⟩

/-- What `OSA` leaves for the next operation. -/
theorem osa_answers {s : State} (hs : Ready .p s) {r : Rate} {b : Block}
    (hfits : b.length * 2 ^ r.stages ≤ s.cfg.frameMax) {c : PerStage FilterState × Block}
    (hc : cascadeBlock s.cfg s.os (Stage.firstStages r.stages) b = c) :
    ∃ t, exec (.osa r.code b) s = .next t ∧ Ready .p t ∧ t.cfg = s.cfg ∧ t.os = c.1 ∧
      t.portP.output = s.portP.output ++ statusWord .ok c.2.length :: c.2.words := by
  subst hc
  obtain ⟨t, hexec, hos, hends⟩ := osa_ends hs hfits
  exact ⟨t, hexec, hends.ready (by simp) hs, hends.configuration, hos, by
    rw [hends.portP_output hs.1, cascadeBlock_length, Stage.firstStages_length, Nat.mul_comm]⟩

/-- A block through `OSA` and its two parts through two `OSA`. -/
theorem osa_append {s : State} (hs : Ready .p s) {r : Rate} {x y : Block}
    (hfits : (x ++ y).length * 2 ^ r.stages ≤ s.cfg.frameMax) :
    ∃ (t u v : State) (X Y : Block), exec (.osa r.code (x ++ y)) s = .next t ∧
      exec (.osa r.code x) s = .next u ∧ exec (.osa r.code y) u = .next v ∧ v.os = t.os ∧
      u.portP.output = s.portP.output ++ statusWord .ok X.length :: X.words ∧
      v.portP.output = u.portP.output ++ statusWord .ok Y.length :: Y.words ∧
      t.portP.output = s.portP.output ++ statusWord .ok (X ++ Y).length :: Block.words (X ++ Y) := by
  have hparts := hfits
  rw [List.length_append, Nat.add_mul] at hparts
  obtain ⟨t, exect, -, -, ost, outt⟩ :=
    osa_answers hs hfits (cascadeBlock_append s.cfg (Stage.firstStages_nodup r) s.os x y)
  obtain ⟨u, execu, hu, cfgu, osu, outu⟩ := osa_answers hs (r := r) (b := x) (by omega) rfl
  obtain ⟨v, execv, -, -, osv, outv⟩ := osa_answers hu (r := r) (b := y) (by rw [cfgu]; omega) (by rw [cfgu, osu])
  exact ⟨t, u, v, _, _, exect, execu, execv, osv.trans ost.symm, outu, outv, outt⟩

/-- `OSA` at a rate with three stages and `OSS` of each. -/
theorem osa_eq_three_oss {s : State} (hs : Ready .p s) {r : Rate} {b : Block} (hr : r.stages = 3)
    (hfits : b.length * 8 ≤ s.cfg.frameMax) :
    ∃ (t u : State) (X Y Z : Block) (words : List Word),
      exec (.osa r.code b) s = .next t ∧ execAll [.oss 0 b, .oss 1 X, .oss 2 Y] s = .next u ∧
      u.os = t.os ∧ t.portP.output = s.portP.output ++ statusWord .ok Z.length :: Z.words ∧
      u.portP.output = s.portP.output ++ words ++ statusWord .ok Z.length :: Z.words ∧
      words = statusWord .ok X.length :: X.words ++ statusWord .ok Y.length :: Y.words := by
  obtain ⟨⟨f0, X⟩, hX⟩ : ∃ r0, stageBlock s.cfg.clampBound (s.cfg.stage.get .s0) (s.os.get .s0) b = r0 := ⟨_, rfl⟩
  obtain ⟨⟨f1, Y⟩, hY⟩ :
      ∃ r1, stageBlock s.cfg.clampBound (s.cfg.stage.get .s1) ((s.os.set .s0 f0).get .s1) X = r1 := ⟨_, rfl⟩
  obtain ⟨⟨f2, Z⟩, hZ⟩ :
      ∃ r2, stageBlock s.cfg.clampBound (s.cfg.stage.get .s2) (((s.os.set .s0 f0).set .s1 f1).get .s2) Y = r2 := ⟨_, rfl⟩
  have hcascade : cascadeBlock s.cfg s.os (Stage.firstStages r.stages) b =
      (((s.os.set .s0 f0).set .s1 f1).set .s2 f2, Z) := by
    simp only [hr, Stage.firstStages, List.take, cascadeBlock, hX, hY, hZ]
  have hlenX : X.length = 2 * b.length := by rw [← stageBlock_length, hX]
  have hlenY : Y.length = 2 * X.length := by rw [← stageBlock_length, hY]
  obtain ⟨t, exect, -, -, ost, outt⟩ := osa_answers hs (r := r) (b := b) (by rw [hr]; exact hfits) hcascade
  obtain ⟨s1, exec1, hs1, cfg1, os1, out1⟩ := oss_answers hs (a := 0) rfl (by omega) hX
  obtain ⟨s2, exec2, hs2, cfg2, os2, out2⟩ := oss_answers hs1 (a := 1) (st := .s1) rfl (b := X)
    (by rw [cfg1]; omega) (r := (f1, Y)) (by rw [cfg1, os1]; exact hY)
  obtain ⟨s3, exec3, -, -, os3, out3⟩ := oss_answers hs2 (a := 2) (st := .s2) rfl (b := Y)
    (by rw [cfg2, cfg1]; omega) (r := (f2, Z)) (by rw [cfg2, cfg1, os2, os1]; exact hZ)
  refine ⟨t, s3, X, Y, Z, _, exect, by rw [execAll_cons exec1, execAll_cons exec2, execAll_cons exec3, execAll],
    by rw [os3, os2, os1, ost], outt, ?_, rfl⟩
  rw [out3, out2, out1]
  simp only [List.append_assoc]

/-- `OSA` at a rate with two stages and `OSS` of each. -/
theorem osa_eq_two_oss {s : State} (hs : Ready .p s) {r : Rate} {b : Block} (hr : r.stages = 2)
    (hfits : b.length * 4 ≤ s.cfg.frameMax) :
    ∃ (t u : State) (X Y : Block),
      exec (.osa r.code b) s = .next t ∧ execAll [.oss 0 b, .oss 1 X] s = .next u ∧
      u.os = t.os ∧ t.portP.output = s.portP.output ++ statusWord .ok Y.length :: Y.words ∧
      u.portP.output = s.portP.output ++ (statusWord .ok X.length :: X.words) ++ statusWord .ok Y.length :: Y.words := by
  obtain ⟨⟨f0, X⟩, hX⟩ : ∃ r0, stageBlock s.cfg.clampBound (s.cfg.stage.get .s0) (s.os.get .s0) b = r0 := ⟨_, rfl⟩
  obtain ⟨⟨f1, Y⟩, hY⟩ :
      ∃ r1, stageBlock s.cfg.clampBound (s.cfg.stage.get .s1) ((s.os.set .s0 f0).get .s1) X = r1 := ⟨_, rfl⟩
  have hcascade : cascadeBlock s.cfg s.os (Stage.firstStages r.stages) b =
      ((s.os.set .s0 f0).set .s1 f1, Y) := by
    simp only [hr, Stage.firstStages, List.take, cascadeBlock, hX, hY]
  have hlenX : X.length = 2 * b.length := by rw [← stageBlock_length, hX]
  obtain ⟨t, exect, -, -, ost, outt⟩ := osa_answers hs (r := r) (b := b) (by rw [hr]; exact hfits) hcascade
  obtain ⟨s1, exec1, hs1, cfg1, os1, out1⟩ := oss_answers hs (a := 0) rfl (by omega) hX
  obtain ⟨s2, exec2, -, -, os2, out2⟩ := oss_answers hs1 (a := 1) (st := .s1) rfl (b := X)
    (by rw [cfg1]; omega) (r := (f1, Y)) (by rw [cfg1, os1]; exact hY)
  exact ⟨t, s2, X, Y, exect, by rw [execAll_cons exec1, execAll_cons exec2, execAll], by rw [os2, os1, ost], outt,
    by rw [out2, out1]⟩

/-- `OSA` at a rate with one stage and `OSS` of it. -/
theorem osa_eq_one_oss {s : State} (hs : Ready .p s) {r : Rate} {b : Block} (hr : r.stages = 1)
    (hfits : b.length * 2 ≤ s.cfg.frameMax) :
    ∃ (t u : State) (X : Block),
      exec (.osa r.code b) s = .next t ∧ exec (.oss 0 b) s = .next u ∧
      u.os = t.os ∧ t.portP.output = s.portP.output ++ statusWord .ok X.length :: X.words ∧
      u.portP.output = s.portP.output ++ statusWord .ok X.length :: X.words := by
  obtain ⟨⟨f0, X⟩, hX⟩ : ∃ r0, stageBlock s.cfg.clampBound (s.cfg.stage.get .s0) (s.os.get .s0) b = r0 := ⟨_, rfl⟩
  have hcascade : cascadeBlock s.cfg s.os (Stage.firstStages r.stages) b = (s.os.set .s0 f0, X) := by
    simp only [hr, Stage.firstStages, List.take, cascadeBlock, hX]
  obtain ⟨t, exect, -, -, ost, outt⟩ := osa_answers hs (r := r) (b := b) (by rw [hr]; exact hfits) hcascade
  obtain ⟨u, execu, -, -, osu, outu⟩ := oss_answers hs (a := 0) rfl (by omega) hX
  exact ⟨t, u, X, exect, execu, osu.trans ost.symm, outt, outu⟩

/-- Settles O27: by the cut of a cascade, and stage by stage. -/
theorem osaDoesNotDependOnTheCut : Obligations.OsaDoesNotDependOnTheCut :=
  ⟨fun _ _ _ _ hs hfits => osa_append hs hfits, fun _ _ _ hs hr _ hfits => osa_eq_three_oss hs hr hfits,
    fun _ _ _ hs hr _ hfits => osa_eq_two_oss hs hr hfits, fun _ _ _ hs hr _ hfits => osa_eq_one_oss hs hr hfits⟩

/-! A fresh start. -/

/-- A run in two parts. -/
theorem execAll_append (is js : List Instr) (s : State) : execAll (is ++ js) s = andThen (execAll is s) (execAll js) := by
  induction is generalizing s with
  | nil => rfl
  | cons i is ih =>
    rw [List.cons_append, execAll, execAll]
    cases exec i s with
    | next t => exact ih t
    | fault e => rfl
    | refused e => rfl

/-- `OSR` of a stage, for a sequence. -/
theorem osr_answers {s : State} (hs : Ready .p s) {a : BitVec 4} {st : Stage} (ha : Stage.ofIndex a = some st) :
    ∃ t, exec (.osr a) s = .next t ∧ Ready .p t ∧ t.cfg = s.cfg ∧
      t.os = s.os.set st (FilterState.zero (s.cfg.lineLength st)) ∧
      t.portP.output = s.portP.output ++ [statusWord .ok 0] := by
  obtain ⟨t, hexec, hos, hends⟩ := osr_stage_ends hs ha
  exact ⟨t, hexec, hends.ready (by simp) hs, hends.configuration, hos, hends.portP_output hs.1⟩

/-- `OSR` of the first `k` stages in turn resets them. -/
theorem osr_firstStages {s : State} (hs : Ready .p s) {k : Nat} (hk : k ≤ 3) :
    ∃ u, execAll (([.osr 0, .osr 1, .osr 2] : List Instr).take k) s = .next u ∧ Ready .p u ∧ u.cfg = s.cfg ∧
      (∀ st ∈ Stage.firstStages k, u.os.get st = FilterState.zero (s.cfg.lineLength st)) ∧
      u.portP.output = s.portP.output ++ List.replicate k (statusWord .ok 0) := by
  obtain ⟨s1, exec1, hs1, cfg1, os1, out1⟩ := osr_answers hs (a := 0) (st := .s0) rfl
  obtain ⟨s2, exec2, hs2, cfg2, os2, out2⟩ := osr_answers hs1 (a := 1) (st := .s1) rfl
  obtain ⟨s3, exec3, hs3, cfg3, os3, out3⟩ := osr_answers hs2 (a := 2) (st := .s2) rfl
  match k, hk with
  | 0, _ => exact ⟨s, rfl, hs, rfl, by simp [Stage.firstStages], by simp⟩
  | 1, _ =>
    refine ⟨s1, execAll_cons exec1 [], hs1, cfg1, ?_, out1⟩
    simp [Stage.firstStages, os1]
  | 2, _ =>
    refine ⟨s2, (execAll_cons exec1 _).trans (execAll_cons exec2 []), hs2, cfg2.trans cfg1, ?_, ?_⟩
    · simp [Stage.firstStages, os2, os1, cfg1, PerStage.get, PerStage.set]
    · rw [out2, out1, List.append_assoc]
      rfl
  | 3, _ =>
    refine ⟨s3, (execAll_cons exec1 _).trans ((execAll_cons exec2 _).trans (execAll_cons exec3 [])), hs3,
      cfg3.trans (cfg2.trans cfg1), ?_, ?_⟩
    · simp [Stage.firstStages, os3, os2, os1, cfg2, cfg1, PerStage.get, PerStage.set]
    · rw [out3, out2, out1, List.append_assoc, List.append_assoc]
      rfl

/-- Settles O28: after the resets the stages that `OSA` uses hold what the fresh ones do. -/
theorem resetReproducesAFreshStart : Obligations.ResetReproducesAFreshStart := by
  refine ⟨fun cfg os r b => by rw [cascadeBlock_length, Stage.firstStages_length], fun s a st hs ha => ?_,
    fun s fresh r b hs hfresh hcfg hos hfits => ?_⟩
  · obtain ⟨t, hexec, -, -, hos, -⟩ := osr_answers hs ha
    exact ⟨t, hexec, by rw [hos, PerStage.get_set_same, resetWith_os_get]⟩
  · obtain ⟨v, execv, hv, cfgv, osv, outv⟩ := osr_firstStages hs r.stages_le
    have hsame : ∀ st ∈ Stage.firstStages r.stages, v.os.get st = fresh.os.get st := fun st hst => by
      rw [osv st hst, hos, resetWith_os_get]
    obtain ⟨hblock, hstages⟩ := cascadeBlock_congr s.cfg b hsame
    obtain ⟨t, exect, -, -, ost, outt⟩ := osa_answers hv (r := r) (b := b) (by rw [cfgv]; exact hfits) (by rw [cfgv])
    obtain ⟨u, execu, -, -, osu, outu⟩ := osa_answers hfresh (r := r) (b := b) (by rw [hcfg]; exact hfits) (by rw [hcfg])
    have hlen : (cascadeBlock s.cfg fresh.os (Stage.firstStages r.stages) b).2.length = 2 ^ r.stages * b.length := by
      rw [cascadeBlock_length, Stage.firstStages_length]
    refine ⟨t, u, _, ?_, execu, fun st hst => by rw [ost, osu, hstages st hst], ?_, by rw [outu, hlen]⟩
    · rw [execAll_append, execv]
      exact execAll_cons exect []
    · rw [outt, outv, hblock, hlen]

end Machine

end Sys2Proof
end

section
/-! A stage's circular delay line as a shift register (spec/41_oversampling_cascade.md sections 1, 3, 6 and 7). -/

namespace Sys2Proof.Machine

/-! The delay line and the register. -/

/-- A stage with a pair received, the cursor still at it (R143). -/
def FilterState.received (f : FilterState) (x : Pair) : FilterState := { f with dl := f.dl.set f.cur x }

/-- The register after a pair is received. -/
def shiftIn (taps : Nat) (d : List Pair) (x : Pair) : List Pair := (x :: d).take (2 * taps)

/-- A shape with taps has its cursor in the line. -/
theorem StageShape.cur_lt {n : Nat} {f : FilterState} (h : StageShape n f) (hn : 0 < n) : f.cur < n := by
  obtain ⟨-, hcur | hcur⟩ := h
  · exact hcur
  · omega

@[simp] theorem window_length (taps : Nat) (f : FilterState) : (window taps f).length = 2 * taps := by
  simp [window]

@[simp] theorem shiftIn_length {taps : Nat} {d : List Pair} (hd : d.length = 2 * taps) (x : Pair) :
    (shiftIn taps d x).length = 2 * taps := by
  simp [shiftIn, hd]

/-- The pair just received. -/
theorem tap_received_zero {n : Nat} {f : FilterState} (h : StageShape n f) (hn : 0 < n) (x : Pair) :
    tap n (f.received x) 0 = x := by
  have hcur := h.cur_lt hn
  have hindex : (f.cur + n - 0) % n = f.cur := by rw [Nat.sub_zero, Nat.add_mod_right, Nat.mod_eq_of_lt hcur]
  simp only [tap, FilterState.received, hindex]
  simp [List.getD, h.1, hcur]

/-- The pairs received before it move one place. -/
theorem tap_received_succ {n : Nat} {f : FilterState} (h : StageShape n f) (x : Pair) {j : Nat} (hj : j + 1 < n) :
    tap n (f.received x) (j + 1) = tap n f (j + 1) := by
  have hcur := h.cur_lt (by omega)
  have hne : (f.cur + n - (j + 1)) % n ≠ f.cur := by
    intro heq
    obtain hle | hgt := Nat.lt_or_ge f.cur (j + 1)
    · rw [Nat.mod_eq_of_lt (by omega)] at heq
      omega
    · rw [show f.cur + n - (j + 1) = (f.cur - (j + 1)) + n by omega, Nat.add_mod_right,
        Nat.mod_eq_of_lt (by omega)] at heq
      omega
  simp only [tap, FilterState.received, List.getD, List.getElem?_set_ne (Ne.symm hne)]

/-- The register with a pair shifted in holds what the delay line reads. -/
theorem getD_shiftIn_window {taps : Nat} {f : FilterState} (h : StageShape (2 * taps) f) (x : Pair)
    {j : Nat} (hj : j < 2 * taps) : (shiftIn taps (window taps f) x).getD j Pair.zero = tap (2 * taps) (f.received x) j := by
  cases j with
  | zero =>
    rw [tap_received_zero h (by omega)]
    simp [shiftIn, List.getD, hj]
  | succ j =>
    rw [tap_received_succ h x hj]
    simp [shiftIn, List.getD, hj, window]

/-- The weighted sum of R143 over the delay line is that over the register. -/
theorem accumulate_eq {taps : Nat} {f : FilterState} (h : StageShape (2 * taps) f) (x : Pair)
    (member : Pair → Word) (cs : List Int) : ∀ k, k + cs.length ≤ taps →
      accumulate member (2 * taps) taps (f.received x) k cs =
        weightedSum member taps (shiftIn taps (window taps f) x) k cs := by
  induction cs with
  | nil => exact fun k _ => rfl
  | cons c cs ih =>
    intro k hk
    rw [List.length_cons] at hk
    rw [accumulate, weightedSum, ih (k + 1) (by omega), getD_shiftIn_window h x (by omega),
      getD_shiftIn_window h x (by omega)]

/-- The stage after one pair, as a window, is the register with the pair shifted in. -/
theorem window_stagePair (bound : Nat) {sc : StageConfig} {f : FilterState} (ht : 0 < sc.taps)
    (h : StageShape (2 * sc.taps) f) (x : Pair) :
    window sc.taps (stagePair bound sc f x).1 = shiftIn sc.taps (window sc.taps f) x := by
  refine List.ext_getElem (by simp) fun j hj hj' => ?_
  rw [window_length] at hj
  have hcur := h.cur_lt (n := 2 * sc.taps) (by omega)
  have hindex : ((f.cur + 1) % (2 * sc.taps) + 2 * sc.taps - (j + 1)) % (2 * sc.taps) =
      (f.cur + 2 * sc.taps - j) % (2 * sc.taps) := by
    obtain hlt | heq : f.cur + 1 < 2 * sc.taps ∨ f.cur + 1 = 2 * sc.taps := by omega
    · rw [Nat.mod_eq_of_lt hlt]
      congr 1
      omega
    · rw [heq, Nat.mod_self, Nat.zero_add, show f.cur + 2 * sc.taps - j = (2 * sc.taps - (j + 1)) + 2 * sc.taps by omega,
        Nat.add_mod_right]
  have hright : (shiftIn sc.taps (window sc.taps f) x)[j] = tap (2 * sc.taps) (f.received x) j := by
    rw [← getD_shiftIn_window h x hj, List.getD_eq_getElem _ _ hj']
  rw [hright]
  simp only [window, List.getElem_map, List.getElem_range, tap, stagePair, FilterState.received, hindex]

/-- A stage keeps its shape over a pair. -/
theorem stagePair_shape (bound : Nat) {sc : StageConfig} {f : FilterState} (ht : 0 < sc.taps)
    (h : StageShape (2 * sc.taps) f) (x : Pair) : StageShape (2 * sc.taps) (stagePair bound sc f x).1 :=
  stageBlock_shape (bound := bound) [x] ht h

/-- The interpolated sample of the delay line is that of the register. -/
theorem interpolate_eq (bound : Nat) {sc : StageConfig} {f : FilterState}
    (h : StageShape (2 * sc.taps) f) (x : Pair) (member : Pair → Word) :
    interpolate bound sc member (f.received x) =
      shiftInterpolate bound sc member (shiftIn sc.taps (window sc.taps f) x) := by
  rw [interpolate, shiftInterpolate, accumulate_eq h x member _ 0 (by simp)]

/-- Settles O24: pair by pair. -/
theorem stageIsAShiftRegister : Obligations.StageIsAShiftRegister := by
  intro bound sc f b ht h
  induction b generalizing f with
  | nil => exact ⟨rfl, rfl⟩
  | cons x b ih =>
    obtain ⟨hwindow, hblock⟩ := ih (stagePair bound sc f x).1 (stagePair_shape bound ht h x)
    rw [window_stagePair bound ht h x] at hwindow hblock
    have hreal : (stagePair bound sc f x).2.1 = (shiftIn sc.taps (window sc.taps f) x).getD sc.taps Pair.zero :=
      (getD_shiftIn_window h x (by omega)).symm
    have hpair : (stagePair bound sc f x).2.2 =
        ⟨shiftInterpolate bound sc Pair.l (shiftIn sc.taps (window sc.taps f) x),
          shiftInterpolate bound sc Pair.r (shiftIn sc.taps (window sc.taps f) x)⟩ := by
      rw [← interpolate_eq bound h, ← interpolate_eq bound h]
      rfl
    simp only [stageBlock, shiftBlock]
    exact ⟨hwindow, by rw [hreal, hpair, hblock]; rfl⟩

/-! The output of a stage. -/

/-- The even output pairs are the input, `H` pairs late. -/
theorem shiftBlock_even (bound : Nat) {sc : StageConfig} (ht : 0 < sc.taps) (b : Block) : ∀ (d : List Pair) (n : Nat),
    d.length = 2 * sc.taps → n < b.length →
    (shiftBlock bound sc d b).2[2 * n]? = if sc.taps ≤ n then b[n - sc.taps]? else d[sc.taps - 1 - n]? := by
  induction b with
  | nil => intro d n _ hn; simp at hn
  | cons x b ih =>
    intro d n hd hn
    cases n with
    | zero =>
      rw [if_neg (by omega)]
      have hget : ((x :: d).take (2 * sc.taps))[sc.taps]? = d[sc.taps - 1]? := by
        rw [List.getElem?_take, if_pos (by omega), show sc.taps = (sc.taps - 1) + 1 by omega, List.getElem?_cons_succ]
        rfl
      have hlt : sc.taps - 1 < d.length := by omega
      simp [shiftBlock, List.getD, hget, hlt]
    | succ n =>
      have hstep : (shiftBlock bound sc d (x :: b)).2[2 * (n + 1)]? =
          (shiftBlock bound sc (shiftIn sc.taps d x) b).2[2 * n]? := by
        rw [show 2 * (n + 1) = 2 * n + 1 + 1 by omega]
        rfl
      rw [hstep, ih _ n (shiftIn_length hd x) (by simpa using hn)]
      by_cases hle : sc.taps ≤ n
      · rw [if_pos hle, if_pos (by omega), show n + 1 - sc.taps = (n - sc.taps) + 1 by omega, List.getElem?_cons_succ]
      · rw [if_neg hle, shiftIn, List.getElem?_take, if_pos (by omega)]
        by_cases heq : sc.taps = n + 1
        · rw [if_pos (by omega), show sc.taps - 1 - n = 0 by omega, show n + 1 - sc.taps = 0 by omega]
          rfl
        · rw [if_neg (by omega), show sc.taps - 1 - n = (sc.taps - 1 - (n + 1)) + 1 by omega, List.getElem?_cons_succ]

/-- The odd output pairs are interpolated samples. -/
theorem shiftBlock_odd (bound : Nat) (sc : StageConfig) (b : Block) : ∀ (d : List Pair) (n : Nat), n < b.length →
    ∃ d', (shiftBlock bound sc d b).2[2 * n + 1]? =
      some ⟨shiftInterpolate bound sc Pair.l d', shiftInterpolate bound sc Pair.r d'⟩ := by
  induction b with
  | nil => intro d n hn; simp at hn
  | cons x b ih =>
    intro d n hn
    cases n with
    | zero => exact ⟨_, rfl⟩
    | succ n =>
      obtain ⟨d', hd'⟩ := ih ((x :: d).take (2 * sc.taps)) n (by simpa using hn)
      exact ⟨d', by rw [show 2 * (n + 1) + 1 = 2 * n + 1 + 1 + 1 by omega]; exact hd'⟩

/-- A number that a word holds is read back from it. -/
theorem toInt_word {v : Int} (hlo : -2 ^ 31 ≤ v) (hhi : v < 2 ^ 31) : (word v).toInt = v := by
  rw [word, BitVec.toInt_ofInt]
  exact Int.bmod_eq_of_le (by omega) (by omega)

/-- An interpolated sample lies within the clamp. -/
theorem shiftInterpolate_bounds {bound : Nat} (hb : bound < 2 ^ 31) (sc : StageConfig) (member : Pair → Word)
    (d : List Pair) :
    -(bound : Int) ≤ (shiftInterpolate bound sc member d).toInt ∧ (shiftInterpolate bound sc member d).toInt ≤ bound := by
  obtain ⟨hlo, hhi⟩ := clamp_bounds (asr (weightedSum member sc.taps d 0 (sc.coef.take sc.taps)) sc.shift)
    (lo := -(bound : Int)) (hi := bound) (by omega)
  rw [shiftInterpolate, toInt_word (by omega) (by omega)]
  exact ⟨hlo, hhi⟩

/-- Settles O25: by the shift register that the stage is. -/
theorem stageDelaysAndClamps : Obligations.StageDelaysAndClamps := by
  intro bound sc f b n hbound ht h hn
  rw [(stageIsAShiftRegister bound sc f b ht h).2]
  obtain ⟨d, hd⟩ := shiftBlock_odd bound sc b (window sc.taps f) n hn
  obtain ⟨hlo, hhi⟩ := shiftInterpolate_bounds hbound sc Pair.l d
  obtain ⟨hlo', hhi'⟩ := shiftInterpolate_bounds hbound sc Pair.r d
  exact ⟨shiftBlock_even bound ht b _ n (window_length _ _) hn, _, hd, hlo, hhi, hlo', hhi'⟩

end Sys2Proof.Machine
end

section
/-! The encoder: `DSE` and `DSZ`, zero in and mid-scale out, and the noise transfer (spec/43_encoder.md). -/

namespace Sys2Proof.Machine

/-! `DSE` and `DSZ`. -/

/-- `DSE` of a pair that gives words (R184). -/
theorem exec_dse_words {s u : State} (hs : Ready .c s) {left right wl wr : Word}
    (h : encodePair ⟨left, right⟩ s = (some (wl, wr), u)) :
    exec (.dse left right) s = .next (u.respond (Reply.plain .ok [wl, wr])) := by
  rw [exec, execDse, State.gate_ready hs (by decide), h]
  rfl

/-- `DSE` of a pair on which an integrator overflows (R187). -/
theorem exec_dse_overflow {s u : State} (hs : Ready .c s) {left right : Word}
    (h : encodePair ⟨left, right⟩ s = (none, u)) :
    exec (.dse left right) s =
      .next (u.respond (Reply.plain .dsOverflow [(freeWords s).1, (freeWords s).2])) := by
  rw [exec, execDse, State.gate_ready hs (by decide), h]
  rfl

/-- Settles O39, by whether a channel overflows and whether one has. -/
theorem dseEncodesAPair : Obligations.DseEncodesAPair := by
  intro s left right hs
  obtain ⟨chL, wL, chR, wR, hlost, hleft, hright, henc⟩ | ⟨hlost, ⟨l, hleft⟩, ⟨r, hright⟩, henc⟩ | ⟨hnone, henc⟩ :=
    encodePair_cases ⟨left, right⟩ s
  · refine ⟨fun chL' wL' chR' wR' hl hr => ?_, fun hnone => ?_⟩
    · obtain ⟨rfl, rfl⟩ := Prod.mk.inj (Option.some.inj (hleft.symm.trans hl))
      obtain ⟨rfl, rfl⟩ := Prod.mk.inj (Option.some.inj (hright.symm.trans hr))
      refine ⟨_, exec_dse_words hs henc, fun _ => ⟨by simp [storeChannels, hlost], ?_⟩, fun h => by simp [hlost] at h⟩
      exact (storeChannels_touches chL chR s).respond (Reply.words_plain .ok _)
    · obtain h | h := hnone
      · simp [h] at hleft
      · simp [h] at hright
  · refine ⟨fun chL' wL' chR' wR' _ _ => ?_, fun hnone => ?_⟩
    · refine ⟨_, exec_dse_words hs henc, fun h => by simp [hlost] at h, fun _ => ⟨by simp [freeModulator], ?_⟩⟩
      exact ⟨_, _, (loseModulator_touches s).respond (Reply.words_plain .ok _)⟩
    · obtain h | h := hnone
      · simp [h] at hleft
      · simp [h] at hright
  · refine ⟨fun chL' wL' chR' wR' hl hr => ?_, fun _ => ?_⟩
    · obtain h | h := hnone
      · simp [h] at hl
      · simp [h] at hr
    · exact ⟨_, _, _, exec_dse_overflow hs henc, by simp [freeModulator], (loseModulator_touches s).respond (Reply.words_plain .dsOverflow _)⟩

/-- What `DSZ` does past the checks (R186). -/
theorem exec_dsz_ready {s : State} (hs : Ready .c s) :
    exec .dsz s = .next ((zeroModulator s).respond (Reply.plain .ok [])) := by
  rw [exec, execDsz, State.gate_ready hs (by decide)]
  rfl

/-- Settles O40: the body of `DSZ` is the reset value. -/
theorem dszResetsTheModulator : Obligations.DszResetsTheModulator := by
  refine ⟨encode_of_formatZ rfl, fun s => rfl, fun s hport => ?_, fun s hs => ?_⟩
  · exact exec_wrongPort (i := .dsz) (by simpa [Instr.row, ports] using hport)
  · exact ⟨_, exec_dsz_ready hs, by simp [Modulator.zero, Channel.zero], by simp [Modulator.zero, Channel.zero],
      by simp [State.resetWith], (zeroModulator_touches s).respond (Reply.words_plain .ok [])⟩

/-! Zero in, mid-scale out (R188). -/

/-- Zero stays zero on the way to zero. -/
theorem subSample_zero (cfg : Config) (j : Nat) : subSample cfg 0 0 j = 0 := by
  simp [subSample, asr]

/-- The code of zero is the mid-scale code. -/
theorem quantize_zero {cfg : Config} (hpos : 1 ≤ cfg.dsW) (hle : cfg.dsW ≤ cfg.dsInBits) :
    quantize cfg 0 = ((2 ^ (cfg.dsW - 1) : Nat) : Int) := by
  have hexp : cfg.dsInBits - 1 = (cfg.dsW - 1) + (cfg.dsInBits - cfg.dsW) := by omega
  have hmid : asr (0 + bias cfg) (qShift cfg) = ((2 ^ (cfg.dsW - 1) : Nat) : Int) := by
    rw [asr, bias, qShift, Int.zero_add, hexp, pow_add, Nat.cast_mul]
    exact Int.mul_ediv_cancel _ (by positivity)
  have htop : 2 ^ cfg.dsW = 2 * 2 ^ (cfg.dsW - 1) := by
    rw [← pow_succ', Nat.sub_add_cancel hpos]
  have hbig : 0 < 2 ^ (cfg.dsW - 1) := Nat.two_pow_pos _
  rw [quantize, hmid, clamp, qMax, htop]
  generalize 2 ^ (cfg.dsW - 1) = m at hbig ⊢
  rw [if_neg (by omega), if_neg (by omega)]

/-- Equal codes packed are a sum of their places. -/
theorem packCodes_replicate (width c n : Nat) :
    packCodes width (List.replicate n (c : Int)) = ((List.range n).map fun j => c * 2 ^ (width * j)).sum := by
  induction n with
  | zero => rfl
  | succ n ih =>
    rw [List.replicate_succ, packCodes, ih, List.range_succ_eq_map, List.map_cons, List.map_map, List.sum_cons,
      ← List.sum_map_mul_left, Int.toNat_natCast]
    congr 1
    · simp
    · refine congrArg List.sum (List.map_congr_left fun j _ => ?_)
      simp only [Function.comp_apply, Nat.mul_succ, pow_add]
      ring

/-- `MID` as a number. -/
theorem toNat_midWord {cfg : Config} (hpos : 1 ≤ cfg.dsW) (hfit : cfg.dsN * cfg.dsW ≤ 32) :
    (midWord cfg).toNat = ((List.range cfg.dsN).map fun j => 2 ^ (cfg.dsW - 1) * 2 ^ (cfg.dsW * j)).sum := by
  have hlt : packCodes cfg.dsW (List.replicate cfg.dsN ((2 ^ (cfg.dsW - 1) : Nat) : Int)) < 2 ^ 32 := by
    have hdigits : ∀ code ∈ List.replicate cfg.dsN ((2 ^ (cfg.dsW - 1) : Nat) : Int), code.toNat < 2 ^ cfg.dsW := by
      intro code hcode
      rw [List.eq_of_mem_replicate hcode, Int.toNat_natCast]
      exact Nat.pow_lt_pow_right (by omega) (by omega)
    have hlen := packCodes_lt hdigits
    rw [List.length_replicate, Nat.mul_comm] at hlen
    exact hlen.trans_le (Nat.pow_le_pow_right Nat.two_pos hfit)
  rw [midWord, BitVec.toNat_ofNat, Nat.mod_eq_of_lt hlt, packCodes_replicate]

/-- Integrators at zero stay there on zero input and zero output. -/
theorem integrate_zero (cfg : Config) (n : Nat) : integrate cfg 0 0 (List.replicate n 0) = some (List.replicate n 0) := by
  induction n with
  | zero => rfl
  | succ n ih => simp [List.replicate_succ, integrate, fitsIntegrator_zero, ih]

/-- Sub-steps of zero from zero give the mid-scale code each and stay. -/
theorem subSteps_zero {cfg : Config} (hpos : 1 ≤ cfg.dsW) (hle : cfg.dsW ≤ cfg.dsInBits) (m n : Nat) :
    subSteps cfg (List.replicate m 0) (List.replicate n 0) =
      some (List.replicate m 0, List.replicate n ((2 ^ (cfg.dsW - 1) : Nat) : Int)) := by
  have hinput : quantizerInput (List.replicate m 0) 0 = 0 := by
    cases m <;> simp [quantizerInput, List.getLast?_replicate]
  have hstep : subStep cfg (List.replicate m 0) 0 =
      some (List.replicate m 0, ((2 ^ (cfg.dsW - 1) : Nat) : Int)) := by
    simp only [subStep, hinput, quantize_zero hpos hle, dequantize_midScale hpos hle, integrate_zero]
  induction n with
  | zero => rfl
  | succ n ih => simp only [List.replicate_succ, subSteps, hstep, ih]

/-- A channel in its reset state answers zero with the mid-scale word and stays. -/
theorem encodeChannel_zero {cfg : Config} (hpos : 1 ≤ cfg.dsW) (hle : cfg.dsW ≤ cfg.dsInBits) :
    encodeChannel cfg (Channel.zero cfg.dsM) 0 = some (Channel.zero cfg.dsM, midWord cfg) := by
  have hsamples : subSamples cfg (BitVec.toInt (0 : Word)) (BitVec.toInt (0 : Word)) = List.replicate cfg.dsN 0 := by
    have hzero : BitVec.toInt (0 : Word) = 0 := by decide
    rw [hzero, List.eq_replicate_iff]
    refine ⟨length_subSamples cfg 0 0, fun u hu => ?_⟩
    obtain ⟨j, -, rfl⟩ := mem_subSamples.mp hu
    exact subSample_zero cfg j
  have hrun := subSteps_zero hpos hle cfg.dsM cfg.dsN
  rw [← hsamples] at hrun
  simp only [encodeChannel, Channel.zero, hrun, midWord]

/-- `DSE` of silence from the reset state answers the mid-scale word twice and changes nothing. -/
theorem encodePair_zero {s : State} (hpos : 1 ≤ s.cfg.dsW) (hle : s.cfg.dsW ≤ s.cfg.dsInBits)
    (hds : s.ds = Modulator.zero s.cfg) : encodePair Pair.zero s = (some (midWord s.cfg, midWord s.cfg), s) := by
  have hchannel := encodeChannel_zero hpos hle
  have hlost : s.ds.lost = false := by rw [hds]; rfl
  have hstay : storeChannels (Channel.zero s.cfg.dsM) (Channel.zero s.cfg.dsM) s = s := by
    rw [storeChannels, hlost]
    exact congrArg (fun ds => { s with ds := ds }) hds.symm
  have hleft : encodeChannel s.cfg s.ds.left Pair.zero.l = some (Channel.zero s.cfg.dsM, midWord s.cfg) := by
    rw [hds]; exact hchannel
  have hright : encodeChannel s.cfg s.ds.right Pair.zero.r = some (Channel.zero s.cfg.dsM, midWord s.cfg) := by
    rw [hds]; exact hchannel
  simp [encodePair, hleft, hright, hlost, hstay]

/-- Settles O41: the reset state is a fixed point of silence. -/
theorem zeroInMidScaleOut : Obligations.ZeroInMidScaleOut := by
  refine ⟨fun cfg hok => ?_, fun s hs hok hds => ?_⟩
  · obtain ⟨⟨hfour, hsix⟩, -, hfit, hin⟩ := encoderParameters_of_configOk hok
    refine ⟨subSample_zero cfg, quantize_zero (by omega) (by omega), dequantize_midScale (by omega) (by omega),
      toNat_midWord (by omega) hfit, fun hw hn => ?_, fun hw hn => ?_, fun hw hn => ?_⟩ <;>
    · rw [midWord, hw, hn]
      decide
  · obtain ⟨⟨hfour, hsix⟩, -, -, hin⟩ := encoderParameters_of_configOk hok
    exact ⟨_, exec_dse_words hs (encodePair_zero (by omega) (by omega) hds), Ends.of_raise s .ok _⟩

/-! The noise transfer (R189). -/

/-- The differences of a sequence at rising order, each with the term before. -/
def carried (before es : List Int) : List Int := before.foldl (fun es b => differences b es) es

/-- The terms of each order, at one place of a sequence, below the last. -/
def carry : Int → List Int → List Int
  | _, [] => []
  | e, b :: bs => e :: carry (e - b) bs

/-- The integrators that go with the terms before, highest order first, when the highest is `v`. -/
def ladder : Int → List Int → List Int
  | _, [] => []
  | v, b :: bs => v :: ladder (v + b) bs

/-- The differences of an empty sequence. -/
theorem carried_nil (bs : List Int) : carried bs [] = [] := by
  induction bs with
  | nil => rfl
  | cons b bs ih => exact ih

/-- The differences of a sequence at its first place, and after it. -/
theorem carried_cons (bs : List Int) : ∀ (e : Int) (es : List Int),
    carried bs (e :: es) = (e - bs.sum) :: carried (carry e bs) es := by
  induction bs with
  | nil => simp [carried, carry]
  | cons b bs ih =>
    intro e es
    have hfirst : carried (b :: bs) (e :: es) = carried bs ((e - b) :: differences e es) := rfl
    rw [hfirst, ih, List.sum_cons, ← Int.sub_sub]
    rfl

/-- The `m`-th difference of a sequence that is 0 before its start. -/
theorem differencesN_eq (m : Nat) : ∀ es, differencesN m es = carried (List.replicate m 0) es := by
  induction m with
  | zero => exact fun es => rfl
  | succ m ih =>
    intro es
    rw [differencesN, ih]
    rfl

/-- How far the integrators lie below an output. -/
theorem map_ladder (e : Int) (bs : List Int) : ∀ v, (ladder v bs).map (v + e - ·) = carry e bs := by
  induction bs generalizing e with
  | nil => exact fun v => rfl
  | cons b bs ih =>
    intro v
    have htail := ih (e - b) (v + b)
    rw [show v + b + (e - b) = v + e by ring] at htail
    simp only [ladder, carry, List.map_cons, htail, add_sub_cancel_left]

/-- The lowest integrator of a ladder. -/
theorem ladder_append (v b : Int) (bs : List Int) : ladder v (bs ++ [b]) = ladder v bs ++ [v + bs.sum] := by
  induction bs generalizing v with
  | nil => simp [ladder]
  | cons c bs ih => simp [ladder, ih, Int.add_assoc]

/-- An update of the integrators: a new ladder, over how far they lay below the output, that starts at the input. -/
theorem integrate_ladder {cfg : Config} {y : Int} (is : List Int) : ∀ {lower : Int} {is' : List Int},
    integrate cfg y lower is = some is' →
    ∃ v, is'.reverse = ladder v (is.map (y - ·)).reverse ∧ lower = v + (is.map (y - ·)).reverse.sum := by
  induction is with
  | nil =>
    rintro lower is' h
    cases h
    exact ⟨lower, rfl, by simp⟩
  | cons i is ih =>
    intro lower is' h
    simp only [integrate] at h
    split at h
    · split at h
      · rename_i is'' hrest
        cases h
        obtain ⟨v, hladder, hlower⟩ := ih hrest
        refine ⟨v, ?_, ?_⟩
        · rw [List.map_cons, List.reverse_cons, List.reverse_cons, ladder_append, hladder, ← hlower]
        · rw [List.map_cons, List.reverse_cons, List.sum_append, List.sum_singleton, ← Int.add_assoc, ← hlower]
          ring
      · cases h
    · cases h

/-- What is quantized is the top of the ladder. -/
theorem quantizerInput_ladder {integ bs : List Int} {v u : Int} (hbs : bs ≠ []) (h : integ.reverse = ladder v bs) :
    quantizerInput integ u = v := by
  obtain ⟨b, bs, rfl⟩ := List.exists_cons_of_ne_nil hbs
  rw [quantizerInput, ← List.head?_reverse, h]
  rfl

/-- The noise transfer from any integrators: `up` is the input before, `bs` the differences of the error before. -/
theorem shaperTrace_eq {cfg : Config} (us : List Int) : ∀ {integ bs : List Int} {up v : Int}, bs ≠ [] →
    integ.reverse = ladder v bs → up = v + bs.sum → subSteps cfg integ us ≠ none →
    (shaperTrace cfg integ us).length = us.length ∧
    (shaperTrace cfg integ us).map Prod.snd =
      List.zipWith (· + ·) (up :: us) (carried bs ((shaperTrace cfg integ us).map fun e => e.2 - e.1)) := by
  induction us with
  | nil => exact fun _ _ _ _ => ⟨rfl, by simp [shaperTrace, carried_nil]⟩
  | cons u us ih =>
    intro integ bs up v hbs hladder hup hrun
    have hinput := quantizerInput_ladder (u := u) hbs hladder
    obtain ⟨integ', hstep, hrest⟩ : ∃ integ', subStep cfg integ u = some (integ', quantize cfg v) ∧
        subSteps cfg integ' us ≠ none := by
      cases hstep : subStep cfg integ u with
      | none => simp [subSteps, hstep] at hrun
      | some r =>
        obtain ⟨integ', code⟩ := r
        obtain rfl : code = quantize cfg v := (subStep_code hstep).trans (by rw [hinput])
        exact ⟨integ', rfl, fun hnone => hrun (by simp [subSteps, hstep, hnone])⟩
    have hintegrate : integrate cfg (dequantize cfg (quantize cfg v)) u integ = some integ' := by
      simp only [subStep, hinput] at hstep
      split at hstep
      · rename_i is his
        cases hstep
        exact his
      · cases hstep
    obtain ⟨v', hladder', hup'⟩ := integrate_ladder integ hintegrate
    have hcarry : (integ.map (dequantize cfg (quantize cfg v) - ·)).reverse =
        carry (dequantize cfg (quantize cfg v) - v) bs := by
      rw [← List.map_reverse, hladder, ← map_ladder _ _ v, add_sub_cancel]
    rw [hcarry] at hladder' hup'
    have hne : carry (dequantize cfg (quantize cfg v) - v) bs ≠ [] := by
      obtain ⟨b, bs, rfl⟩ := List.exists_cons_of_ne_nil hbs
      simp [carry]
    obtain ⟨hlen, houtputs⟩ := ih hne hladder' hup' hrest
    have htrace : shaperTrace cfg integ (u :: us) =
        (v, dequantize cfg (quantize cfg v)) :: shaperTrace cfg integ' us := by
      simp only [shaperTrace, hinput, hstep]
    rw [htrace]
    refine ⟨by simp [hlen], ?_⟩
    rw [List.map_cons, List.map_cons, carried_cons, List.zipWith_cons_cons, ← houtputs, hup]
    refine congrArg (· :: _) ?_
    simp only
    ring

/-- The ladder of integrators at zero. -/
theorem ladder_zero (n : Nat) : ladder 0 (List.replicate n 0) = List.replicate n 0 := by
  induction n with
  | zero => rfl
  | succ n ih => simp [List.replicate_succ, ladder, ih]

/-- The quantization error where the code does not saturate, and the code where it does (R183). -/
theorem quantize_error (cfg : Config) (v : Int) :
    (0 ≤ asr (v + bias cfg) (qShift cfg) → asr (v + bias cfg) (qShift cfg) ≤ qMax cfg →
      -((2 ^ qShift cfg : Nat) : Int) < dequantize cfg (quantize cfg v) - v ∧
      dequantize cfg (quantize cfg v) - v ≤ 0) ∧
    (asr (v + bias cfg) (qShift cfg) < 0 → quantize cfg v = 0) ∧
    (qMax cfg < asr (v + bias cfg) (qShift cfg) → quantize cfg v = 2 ^ cfg.dsW - 1) := by
  have hmax : qMax cfg = 2 ^ cfg.dsW - 1 := by simp [qMax]
  have hpos : (0 : Int) < 2 ^ cfg.dsW := by positivity
  refine ⟨fun hlo hhi => ?_, fun hlo => ?_, fun hhi => ?_⟩
  · have hstep : (0 : Int) < ((2 ^ qShift cfg : Nat) : Int) := by positivity
    have hcode : quantize cfg v = asr (v + bias cfg) (qShift cfg) := by
      rw [quantize, clamp, if_neg (by omega), if_neg (by omega)]
    have hbelow := Int.ediv_mul_le (v + bias cfg) hstep.ne'
    have habove := Int.lt_ediv_add_one_mul_self (v + bias cfg) hstep
    rw [hcode, dequantize, asr]
    constructor <;> linarith
  · rw [quantize, clamp, if_pos hlo]
  · rw [quantize, clamp, if_neg (by omega), if_pos hhi, hmax]

/-- Settles O44: integrators at zero are a ladder over differences that are 0 before the start. -/
theorem noiseTransfer : Obligations.NoiseTransfer := by
  refine ⟨fun cfg us horder hrun => ?_, quantize_error⟩
  have hne : List.replicate cfg.dsM (0 : Int) ≠ [] := by simp; omega
  obtain ⟨hlen, houtputs⟩ := shaperTrace_eq us (up := 0) (v := 0) hne (by rw [List.reverse_replicate, ladder_zero]) (by simp) hrun
  exact ⟨hlen, by rw [differencesN_eq]; exact houtputs⟩

end Sys2Proof.Machine
end

section
/-! The feedback controller: `FBC` and `FBU` (spec/44_rate_feedback.md). -/

namespace Sys2Proof.Machine

/-- What `FBC` does past the checks (R201). -/
theorem exec_fbc_ready {s : State} (hs : Ready .p s) :
    exec .fbc s = .next ((configureFeedback s).2.respond (Reply.plain (configureFeedback s).1 [])) := by
  rw [exec, execFbc, State.gate_ready hs (by decide)]
  rfl

/-- The body of `FBC` under a valid format. -/
theorem configureFeedback_active {s : State} {r : Rate} {d : Depth} (h : activeFormat s = some (r, d)) :
    configureFeedback s = (.ok, seedFeedback r d s) := by
  rw [configureFeedback, h]

/-- The body of `FBC` without a valid format. -/
theorem configureFeedback_inactive {s : State} (h : activeFormat s = none) : configureFeedback s = (.formatErr, s) := by
  rw [configureFeedback, h]

/-- Settles O45, by whether the format is valid. -/
theorem fbcSeedsFromTheNominalValue : Obligations.FbcSeedsFromTheNominalValue := by
  refine ⟨fun s r d hs hfmt => ?_, fun s hs hinvalid => ?_⟩
  · have hexec := exec_fbc_ready hs
    rw [configureFeedback_active (activeFormat_eq_some.mpr hfmt)] at hexec
    refine ⟨_, hexec, by simp [seedFeedback], by simp [seedFeedback], by simp [seedFeedback, feedbackBand],
      by simp [seedFeedback, feedbackBand], by simp [seedFeedback], by simp [seedFeedback], by simp [seedFeedback],
      by simp [seedFeedback], ?_⟩
    exact (seedFeedback_touches r d s).respond (Reply.words_plain .ok [])
  · have hexec := exec_fbc_ready hs
    rw [configureFeedback_inactive (activeFormat_invalid hinvalid)] at hexec
    exact ⟨_, hexec, Ends.of_raise s .formatErr []⟩

/-- What `FBU` does past the checks (R202). -/
theorem exec_fbu_ready {s : State} (hs : Ready .p s) (tick : Word) :
    exec (.fbu tick) s = .next ((updateFeedback tick s.q.total s).2.respond
      (Reply.plain (updateFeedback tick s.q.total s).1 [natWord (updateFeedback tick s.q.total s).2.fb.value])) := by
  rw [exec, execFbu, State.gate_ready hs (by decide)]
  rfl

/-- The body of `FBU` without a valid format or before a configuration. -/
theorem updateFeedback_refused {s : State} (tick : Word) (total : Nat)
    (h : activeFormat s = none ∨ s.fb.configured = false) : updateFeedback tick total s = (.formatErr, s) := by
  obtain ⟨-, heq⟩ | ⟨r, d, hactive, hconf, -⟩ | ⟨r, d, hactive, hconf, -⟩ := updateFeedback_cases tick total s
  · exact heq
  all_goals simp [hactive, hconf] at h

/-- The body of `FBU` on a glitch keeps the tick count alone. -/
theorem updateFeedback_glitch {s : State} {r : Rate} {d : Depth} {tick : Word} (total : Nat)
    (hactive : activeFormat s = some (r, d)) (hconf : s.fb.configured = true) (hglitch : isGlitch tick s = true) :
    updateFeedback tick total s =
      (.fbGlitch, { s with fb := { s.fb with lastTicks := tick, haveLast := true } }) := by
  simp [updateFeedback, hactive, hconf, hglitch]

/-- The body of `FBU` otherwise. -/
theorem updateFeedback_corrected {s : State} {r : Rate} {d : Depth} {tick : Word} (total : Nat)
    (hactive : activeFormat s = some (r, d)) (hconf : s.fb.configured = true) (hglitch : isGlitch tick s = false) :
    updateFeedback tick total s =
      (.ok, { s with fb := { s.fb with value := correctedValue r total s, lastTicks := tick, haveLast := true } }) := by
  simp [updateFeedback, hactive, hconf, hglitch]

/-- The glitch test of R202. -/
theorem isGlitch_iff (tick : Word) (s : State) :
    isGlitch tick s = true ↔ s.fb.haveLast = true ∧
      s.cfg.fbGlitchPpm * s.fb.lastTicks.toNat < ((tick.toNat : Int) - s.fb.lastTicks.toNat).natAbs * 1000000 := by
  simp [isGlitch]

/-- A value clamped to a range that starts at or above zero is not negative. -/
theorem clamp_nonneg (v : Int) {lo hi : Int} (hlo : 0 ≤ lo) (hhi : 0 ≤ hi) : 0 ≤ clamp v lo hi := by
  rw [clamp]
  split_ifs <;> omega

/-- The error of R202, with the queue's total in input pairs. -/
theorem feedbackError_eq (r : Rate) (total : Nat) (s : State) :
    feedbackError r total s =
      clamp (s.fb.target - (total / 2 ^ r.stages : Nat)) (-s.cfg.fbErrLimit) s.cfg.fbErrLimit := by
  rw [feedbackError, asr, Int.natCast_ediv]

/-- The value of R202 is not cut by its being a register. -/
theorem correctedValue_cast (r : Rate) (total : Nat) (s : State) :
    (correctedValue r total s : Int) =
      clamp (s.fb.nominal + feedbackError r total s * s.cfg.fbErrScale) s.fb.min s.fb.max :=
  Int.toNat_of_nonneg (clamp_nonneg _ (Int.natCast_nonneg _) (Int.natCast_nonneg _))

/-- Settles O46, by the three outcomes of the body. -/
theorem fbuUpdatesTheValue : Obligations.FbuUpdatesTheValue := by
  refine ⟨fun s tick hs hnot => ?_, fun s tick r d hs hfmt hconf => ?_⟩
  · have hexec := exec_fbu_ready hs tick
    rw [updateFeedback_refused tick _ (hnot.imp_left activeFormat_invalid)] at hexec
    exact ⟨_, hexec, Ends.of_raise s .formatErr _⟩
  · have hexec := exec_fbu_ready hs tick
    have hactive := activeFormat_eq_some.mpr hfmt
    intro glitch
    cases hglitch : isGlitch tick s with
    | true =>
      rw [updateFeedback_glitch _ hactive hconf hglitch] at hexec
      refine ⟨_, hexec, by simp, by simp, fun _ => ?_, fun hno => absurd ((isGlitch_iff tick s).mp hglitch) hno⟩
      have htouches : Touches [.feedbackTicks] [] 0 s
          { s with fb := { s.fb with lastTicks := tick, haveLast := true } } :=
        Touches.of_fb s _ (fun _ => rfl) (by simp) (fun _ => ⟨rfl, rfl, rfl, rfl, rfl⟩)
      exact htouches.respond (Reply.words_plain .fbGlitch _)
    | false =>
      rw [updateFeedback_corrected _ hactive hconf hglitch] at hexec
      refine ⟨_, hexec, by simp, by simp, fun hyes => ?_, fun _ => ⟨?_, _, rfl, ?_⟩⟩
      · simp [(isGlitch_iff tick s).mpr hyes] at hglitch
      · have htouches : Touches [.feedbackValue, .feedbackTicks] [] 0 s
            { s with
              fb := { s.fb with value := correctedValue r s.q.total s, lastTicks := tick, haveLast := true } } :=
          Touches.of_fb s _ (by simp) (by simp) (fun _ => ⟨rfl, rfl, rfl, rfl, rfl⟩)
        rw [State.respond_fb]
        exact htouches.respond (Reply.words_plain .ok _)
      · obtain ⟨hlow, hhigh⟩ := clamp_bounds (s.fb.target - (s.q.total / 2 ^ r.stages : Nat))
          (show -(s.cfg.fbErrLimit : Int) ≤ s.cfg.fbErrLimit by omega)
        refine ⟨hlow, hhigh, ?_⟩
        rw [State.respond_fb, ← feedbackError_eq r s.q.total s]
        exact correctedValue_cast r s.q.total s

/-! The raw samples (R222, R223). -/

/-- The low bits of a word as a signed number, both ways. -/
theorem toInt_extractLsb'_zero (n : Nat) (w : Word) : (w.extractLsb' 0 n).toInt = sext n w.toNat := by
  have hmod : ((w.toNat : Int) % ((2 ^ n : Nat) : Int)) = ((w.toNat % 2 ^ n : Nat) : Int) := by push_cast; rfl
  rw [BitVec.toInt_eq_toNat_cond, BitVec.extractLsb'_toNat, Nat.shiftRight_zero, sext, hmod]
  have hhalf : 2 * (w.toNat % 2 ^ n) < 2 ^ n ↔ w.toNat % 2 ^ n < 2 ^ (n - 1) := by
    obtain _ | m := n
    · simp
    · rw [pow_succ]
      simp
      omega
  simp only [hhalf, Nat.cast_lt]

/-- A signed number of `n + 1` bits in its range. -/
theorem toInt_bounds {n : Nat} (x : BitVec (n + 1)) : -2 ^ n ≤ x.toInt ∧ x.toInt < 2 ^ n :=
  ⟨BitVec.le_toInt x, BitVec.toInt_lt⟩

/-- Every normalised sample is in the 24-bit range. -/
theorem norm_bounds (d : Depth) (w : Word) : -8388608 ≤ Machine.norm d w ∧ Machine.norm d w ≤ 8388607 := by
  cases d with
  | d16 =>
    obtain ⟨hlow, hhigh⟩ := toInt_bounds (n := 15) (w.extractLsb' 0 16)
    simp only [Machine.norm]
    omega
  | d24 =>
    obtain ⟨hlow, hhigh⟩ := toInt_bounds (n := 23) (w.extractLsb' 0 24)
    simp only [Machine.norm]
    omega
  | d32 =>
    obtain ⟨hlow, hhigh⟩ := toInt_bounds (n := 31) w
    simp only [Machine.norm, asr]
    omega

/-- A sample of the 24-bit range as a bit vector. -/
theorem toInt_ofInt_norm (d : Depth) (w : Word) : (BitVec.ofInt 24 (Machine.norm d w)).toInt = Machine.norm d w := by
  obtain ⟨hlow, hhigh⟩ := norm_bounds d w
  rw [BitVec.toInt_ofInt]
  exact Int.bmod_eq_of_le (by omega) (by omega)

/-- A table that says one thing of a sample gives it. -/
theorem vol_of_mem {cfg : Config} {x y : BitVec 24} (hmem : (x, y) ∈ cfg.vol)
    (hunique : ∀ z, (x, z) ∈ cfg.vol → z = y) : vol cfg x = y := by
  rw [vol]
  cases hfind : cfg.vol.find? (fun e => e.1 == x) with
  | none => simpa using List.find?_eq_none.mp hfind _ hmem
  | some e =>
    have hkey : e.1 = x := by simpa using List.find?_some hfind
    exact hunique e.2 (hkey ▸ List.mem_of_find?_eq_some hfind)

/-- A table that does not speak of a sample leaves it. -/
theorem vol_of_not_mem {cfg : Config} {x : BitVec 24} (hnone : ∀ y, (x, y) ∉ cfg.vol) : vol cfg x = x := by
  have hfind : cfg.vol.find? (fun e => e.1 == x) = none := by
    refine List.find?_eq_none.mpr fun e hmem heq => hnone e.2 ?_
    have hkey : e.1 = x := by simpa using heq
    exact hkey ▸ hmem
  rw [vol, hfind]

/-- Settles O49: the depths, the range, and the table. -/
theorem normalisation : Obligations.Normalisation := by
  refine ⟨fun w => ⟨?_, toInt_extractLsb'_zero 24 w, ?_⟩, norm_bounds, by decide, by decide, by decide, by decide,
    by decide, by decide, by decide, by decide, fun cfg d raw => rfl, fun cfg d w => ?_⟩
  · rw [Machine.norm, toInt_extractLsb'_zero]
  · have hwhole := toInt_extractLsb'_zero 32 w
    rw [BitVec.extractLsb'_eq_self] at hwhole
    rw [Machine.norm, hwhole]
  · exact ⟨BitVec.ofInt 24 (Machine.norm d w), toInt_ofInt_norm d w, BitVec.toInt_signExtend_of_le (by decide),
      fun y => vol_of_mem, vol_of_not_mem⟩

end Sys2Proof.Machine
end

section
/-! The producer cycle (spec/45_pipeline.md section 3). -/

namespace Sys2Proof.Machine

/-! Line 1: the signal. -/

/-- A signal that is not set is taken without effect. -/
theorem takeUpdated_of_clear {s : State} (h : s.fv.updated = false) : takeUpdated s = s := by
  obtain ⟨cfg, life, fmt, ⟨prevRate, prevDepth, updated⟩⟩ := s
  cases h
  rfl

/-- Line 1 with the signal not set. -/
theorem takeSignal_of_clear {s : State} (h : s.fv.updated = false) : takeSignal s = s := by
  rw [takeSignal, h, takeUpdated_of_clear h]
  rfl

/-- Line 1 with the signal set and no valid format. -/
theorem takeSignal_of_inactive {s : State} (hset : s.fv.updated = true) (h : activeFormat s = none) :
    takeSignal s = askModulatorReset (zeroCascade (takeUpdated s)) := by
  obtain ⟨hclear, -⟩ | ⟨-, -, heq⟩ | ⟨r, d, -, hactive, -⟩ := takeSignal_cases s
  · simp [hset] at hclear
  · exact heq
  · simp [h] at hactive

/-- Line 1 with the signal set and a valid format. -/
theorem takeSignal_of_active {s : State} {r : Rate} {d : Depth} (hset : s.fv.updated = true)
    (h : activeFormat s = some (r, d)) :
    takeSignal s = seedFeedback r d (askModulatorReset (zeroCascade (takeUpdated s))) := by
  obtain ⟨hclear, -⟩ | ⟨-, hnone, -⟩ | ⟨r', d', -, hactive, heq⟩ := takeSignal_cases s
  · simp [hset] at hclear
  · simp [h] at hnone
  · obtain ⟨rfl, rfl⟩ := Prod.mk.inj (Option.some.inj (hactive.symm.trans h))
    exact heq

/-- Line 1 leaves the signal taken. -/
theorem takeSignal_updated (s : State) : (takeSignal s).fv.updated = false := by
  obtain ⟨-, h⟩ | ⟨-, -, h⟩ | ⟨r, d, -, -, h⟩ := takeSignal_cases s <;> simp [h]

/-- The cascade after line 1. -/
theorem takeSignal_os (s : State) : (takeSignal s).os = if s.fv.updated then cascadeZero s.cfg else s.os := by
  obtain ⟨hset, h⟩ | ⟨hset, -, h⟩ | ⟨r, d, hset, -, h⟩ := takeSignal_cases s <;> simp [h, hset]

/-- The request after line 1. -/
theorem takeSignal_dsResetReq (s : State) : (takeSignal s).dsResetReq = (s.dsResetReq || s.fv.updated) := by
  obtain ⟨hset, h⟩ | ⟨hset, -, h⟩ | ⟨r, d, hset, -, h⟩ := takeSignal_cases s <;> simp [h, hset]

/-- The feedback after line 1 with a valid format. -/
theorem takeSignal_fb_of_active {s : State} {r : Rate} {d : Depth} (h : activeFormat s = some (r, d)) :
    (takeSignal s).fb = (if s.fv.updated then seedFeedback r d s else s).fb := by
  cases hset : s.fv.updated with
  | false => simp [takeSignal_of_clear hset]
  | true => rw [takeSignal_of_active hset h]; rfl

/-! Lines 2 and 3: the early ends. -/

/-- What `PCY` does past the checks (R224). -/
theorem exec_pcy_ready {s : State} (hs : Ready .p s) (tick : Word) (raw : Block) :
    exec (.pcy tick raw) s = cycleBody tick raw (takeSignal s) := by
  rw [exec, execPcy, State.gate_ready hs (by decide)]

/-- `PCY` without a valid format ends at line 2. -/
theorem exec_pcy_inactive {s : State} (hs : Ready .p s) (tick : Word) (raw : Block) (h : activeFormat s = none) :
    exec (.pcy tick raw) s = .next ((takeSignal s).respond (Reply.plain .formatErr [])) := by
  rw [exec_pcy_ready hs, cycleBody, activeFormat_takeSignal, h]
  rfl

/-- `PCY` with a block that does not fit ends at line 3. -/
theorem exec_pcy_wide {s : State} (hs : Ready .p s) (tick : Word) {raw : Block} {r : Rate} {d : Depth}
    (h : activeFormat s = some (r, d)) (hwide : s.cfg.frameMax < raw.length * 2 ^ r.stages) :
    exec (.pcy tick raw) s = .next ((takeSignal s).respond (Reply.plain .widthErr [])) := by
  simp only [exec_pcy_ready hs, cycleBody, activeFormat_takeSignal, h, takeSignal_cfg, if_pos hwide]
  rfl

/-- `PCY` with a block that fits comes to its enqueue. -/
theorem exec_pcy_fits {s : State} (hs : Ready .p s) (tick : Word) {raw : Block} {r : Rate} {d : Depth}
    (h : activeFormat s = some (r, d)) (hfits : raw.length * 2 ^ r.stages ≤ s.cfg.frameMax) :
    exec (.pcy tick raw) s = answerCycle (updateStatus tick r (rawBlock s.cfg d raw) s)
      (enqueueCycle r (cycleFrame r (rawBlock s.cfg d raw) s) (beforeEnqueue tick r (rawBlock s.cfg d raw) s)) := by
  simp only [exec_pcy_ready hs, cycleBody, activeFormat_takeSignal, h, takeSignal_cfg, if_neg (Nat.not_lt.mpr hfits),
    processBlock_takeSignal]

/-- The cascade that line 1 clears, stage by stage. -/
theorem takeSignal_os_get {s : State} (h : s.fv.updated = true) (r : Reply) (st : Stage) :
    ((takeSignal s).respond r).os.get st = (State.resetWith s.cfg).os.get st := by
  rw [State.respond_os, takeSignal_os, if_pos h]
  rfl

/-- Settles O50: the two early ends answer on what line 1 left. -/
theorem pcyEndsEarly : Obligations.PcyEndsEarly := by
  refine ⟨fun s tick raw hs hinvalid => ?_, fun s tick raw r d hs hfmt hwide => ?_⟩
  · have hnone := activeFormat_invalid hinvalid
    refine ⟨_, exec_pcy_inactive hs tick raw hnone, by simp [takeSignal_updated], fun hset => ⟨?_, ?_, ?_⟩, fun hclear => ?_⟩
    · simp [takeSignal_dsResetReq, hset]
    · exact takeSignal_os_get hset _
    · rw [takeSignal_of_inactive hset hnone]
      exact (((takeUpdated_touches s).trans (zeroCascade_touches _)).trans (askModulatorReset_touches _)).respond
        (Reply.words_plain .formatErr [])
    · rw [takeSignal_of_clear hclear]
      exact Ends.of_raise s .formatErr []
  · have hactive := activeFormat_eq_some.mpr hfmt
    refine ⟨_, exec_pcy_wide hs tick hactive hwide, by simp [takeSignal_updated], fun hset => ⟨?_, ?_, ?_, ?_⟩, fun hclear => ?_⟩
    · simp [takeSignal_dsResetReq, hset]
    · exact takeSignal_os_get hset _
    · rw [State.respond_fb, takeSignal_fb_of_active hactive, if_pos hset]
    · exact (takeSignal_touches s).respond (Reply.words_plain .widthErr [])
    · rw [takeSignal_of_clear hclear]
      exact Ends.of_raise s .widthErr []

end Sys2Proof.Machine
end

section
/-! A producer cycle with a block that fits (spec/45_pipeline.md section 3). -/

namespace Sys2Proof.Machine

/-! What a producer cycle comes to its enqueue with. -/

/-- The update of the feedback reads the format, the registers and the configuration only. -/
theorem updateFeedback_congr {s t : State} (tick : Word) (total : Nat) (hcfg : t.cfg = s.cfg) (hfmt : t.fmt = s.fmt)
    (hfb : t.fb = s.fb) :
    (updateFeedback tick total t).1 = (updateFeedback tick total s).1 ∧
    (updateFeedback tick total t).2.fb = (updateFeedback tick total s).2.fb := by
  have hactive : activeFormat t = activeFormat s := by rw [activeFormat, activeFormat, hfmt]
  have hglitch : isGlitch tick t = isGlitch tick s := by rw [isGlitch, isGlitch, hfb, hcfg]
  have hvalue (r : Rate) : correctedValue r total t = correctedValue r total s := by
    rw [correctedValue, correctedValue, feedbackError, feedbackError, hfb, hcfg]
  simp only [updateFeedback, hactive, hglitch, hvalue, hfb]
  split
  · exact ⟨rfl, hfb⟩
  · split_ifs
    · exact ⟨rfl, rfl⟩
    · exact ⟨rfl, rfl⟩
    · exact ⟨rfl, hfb⟩

/-- The state on which the feedback of a producer cycle is updated. -/
def seeded (r : Rate) (d : Depth) (s : State) : State := if s.fv.updated then seedFeedback r d s else s

/-- What line 7 of a producer cycle does to the feedback. -/
theorem feedback_beforeEnqueue {s : State} {r : Rate} {d : Depth} (tick : Word) (x : Block)
    (h : activeFormat s = some (r, d)) :
    updateStatus tick r x s = (updateFeedback tick s.q.total (seeded r d s)).1 ∧
    (beforeEnqueue tick r x s).fb = (updateFeedback tick s.q.total (seeded r d s)).2.fb := by
  refine updateFeedback_congr tick s.q.total ?_ ?_ ((takeSignal_fb_of_active h : (takeSignal s).fb = _))
  · rw [seeded]
    split_ifs <;> simp
  · rw [seeded]
    split_ifs <;> simp

/-- The cascade before the enqueue. -/
theorem beforeEnqueue_os (tick : Word) (r : Rate) (x : Block) (s : State) :
    (beforeEnqueue tick r x s).os = (cascadeBlock s.cfg (if s.fv.updated then cascadeZero s.cfg else s.os)
      (Stage.firstStages r.stages) x).1 := by
  obtain ⟨f, h⟩ := updateFeedback_frame tick s.q.total (runCascade r x (takeSignal s)).1
  rw [beforeEnqueue, h]
  simp [takeSignal_os]

/-- The frame before the enqueue. -/
theorem cycleFrame_eq (r : Rate) (x : Block) (s : State) :
    cycleFrame r x s = backpressure s.cfg s.q.occ (cascadeBlock s.cfg
      (if s.fv.updated then cascadeZero s.cfg else s.os) (Stage.firstStages r.stages) x).2 := by
  rw [cycleFrame, runCascade, takeSignal_cfg, takeSignal_os]

/-- What lines 1 to 7 write. -/
theorem beforeEnqueue_touches (tick : Word) (r : Rate) (x : Block) (s : State) :
    Touches [.fvUpdated, .stage .s0, .stage .s1, .stage .s2, .resetRequest, .feedbackValue, .feedbackTicks,
      .feedbackBounds] [] 0 s (beforeEnqueue tick r x s) :=
  (((takeSignal_touches s).trans ((runCascade_touches r x _).mono (firstStages_items_subset r))).trans
    (updateFeedback_touches tick s.q.total _)).mono (by decide)

/-- The length of a block under backpressure (R225). -/
theorem length_backpressure (cfg : Config) (occ0 : Nat) (y : Block) :
    (backpressure cfg occ0 y).length =
      if cfg.backpressureLevel ≤ occ0 then y.length - cfg.backpressurePairs else y.length := by
  obtain ⟨hbelow, h⟩ | ⟨hreached, h⟩ := backpressure_cases cfg occ0 y
  · rw [h, if_neg (by omega)]
  · rw [h, if_pos hreached, List.length_take]
    omega

/-- The pairs that backpressure leaves. -/
theorem getElem?_backpressure {cfg : Config} {occ0 : Nat} {y : Block} {j : Nat}
    (hj : j < (backpressure cfg occ0 y).length) : (backpressure cfg occ0 y)[j]? = y[j]? := by
  obtain ⟨-, h⟩ | ⟨-, h⟩ := backpressure_cases cfg occ0 y
  · rw [h]
  · rw [h, List.length_take] at hj
    rw [h, List.getElem?_take_of_lt (by omega)]

/-- The length of the frame of a producer cycle. -/
theorem length_cycleFrame {s : State} (r : Rate) (x : Block) :
    (cycleFrame r x s).length =
      if s.cfg.backpressureLevel ≤ s.q.occ then x.length * 2 ^ r.stages - s.cfg.backpressurePairs
      else x.length * 2 ^ r.stages := by
  rw [cycleFrame_eq, length_backpressure, cascadeBlock_length, Stage.firstStages_length, Nat.mul_comm]

/-! The end of a producer cycle, by what its enqueue answers. -/

/-- The status of a cycle whose queue raised nothing (R226). -/
theorem cycleStatus_ok (feedback : Status) :
    (cycleStatus feedback .ok = .fbGlitch ↔ feedback = .fbGlitch) ∧
    (cycleStatus feedback .ok = .ok ↔ feedback ≠ .fbGlitch) := by
  cases feedback <;> decide

/-- What an enqueue leaves unchanged that is not the queue's. -/
theorem enqueueCycle_frame {rate : Rate} {y : Block} {s u : State} {st : Status}
    (h : enqueueCycle rate y s = .ok (st, u)) : ∃ q, u = { s with q := q } := by
  unfold enqueueCycle at h
  split at h
  · cases h
    exact ⟨s.q, rfl⟩
  · obtain ⟨-, he⟩ | ⟨-, -, -, he⟩ | ⟨-, -, -, e, -, he⟩ | ⟨-, -, -, m, -, he⟩ := enqueue_cases rate.family y s <;>
      rw [he] at h <;> cases h
    · exact ⟨s.q, rfl⟩
    · exact ⟨s.q, rfl⟩
    · exact ⟨_, rfl⟩

/-- How a producer cycle ends whose enqueue answers. -/
theorem pcy_ends {s u : State} {r : Rate} {d : Depth} {tick : Word} {raw : Block} {st : Status} (hs : Ready .p s)
    (hactive : activeFormat s = some (r, d)) (hfits : raw.length * 2 ^ r.stages ≤ s.cfg.frameMax)
    (hu : enqueueCycle r (cycleFrame r (rawBlock s.cfg d raw) s) (beforeEnqueue tick r (rawBlock s.cfg d raw) s) =
      .ok (st, u)) :
    ∃ t, exec (.pcy tick raw) s = .next t ∧ t.q = u.q ∧
      Ends (mayWrite (.pcy tick raw))
        [statusWord (cycleStatus (updateFeedback tick s.q.total (seeded r d s)).1 st) 0] [] 0 s t ∧
      t.fv.updated = false ∧
      t.os = (cascadeBlock s.cfg (if s.fv.updated then cascadeZero s.cfg else s.os) (Stage.firstStages r.stages)
        (rawBlock s.cfg d raw)).1 ∧
      t.fb = (updateFeedback tick s.q.total (seeded r d s)).2.fb ∧ t.dsResetReq = (s.dsResetReq || s.fv.updated) := by
  obtain ⟨hstatus, hfb⟩ := feedback_beforeEnqueue tick (rawBlock s.cfg d raw) hactive
  have hexec := exec_pcy_fits hs tick hactive hfits
  have htouches := (beforeEnqueue_touches tick r (rawBlock s.cfg d raw) s).trans (enqueueCycle_touches hu)
  rw [hu, hstatus] at hexec
  refine ⟨_, hexec, by simp, (htouches.mono (by simp [mayWrite])).respond (Reply.words_plain _ []), ?_⟩
  obtain ⟨q, rfl⟩ := enqueueCycle_frame hu
  obtain ⟨f, hf⟩ := updateFeedback_frame tick s.q.total (runCascade r (rawBlock s.cfg d raw) (takeSignal s)).1
  refine ⟨?_, ?_, ?_, ?_⟩
  · simp [beforeEnqueue, hf, takeSignal_updated]
  · simp [beforeEnqueue_os]
  · simp [hfb]
  · simp [beforeEnqueue, hf, takeSignal_dsResetReq]

/-- Line 8 of a producer cycle that has a frame and finds room. -/
theorem enqueueCycle_of_room {s : State} (hs : RingCore s) (rate : Rate) {y : Block} (hne : y ≠ [])
    (hmax : y.length ≤ s.cfg.frameMax) (hroom : s.q.occ < s.cfg.nSlots) :
    ∃ m, slotWriteBlock s.cfg s.q.data s.q.wc 0 y = .ok m ∧
      enqueueCycle rate y s = .ok (.ok,
        commitEnqueue y.length (writeHeader rate.family y.length { s with q := { s.q with data := m } })) := by
  obtain ⟨m, hm, henqueue⟩ := enqueue_of_room hs rate.family hne hmax hroom
  exact ⟨m, hm, by rw [enqueueCycle, if_neg hne, henqueue]⟩

/-- Line 8 of a producer cycle that has a frame and finds the queue full. -/
theorem enqueueCycle_of_full {s : State} (rate : Rate) {y : Block} (hne : y ≠ []) (hmax : y.length ≤ s.cfg.frameMax)
    (hfull : s.q.occ = s.cfg.nSlots) : enqueueCycle rate y s = .ok (.qFull, s) := by
  rw [enqueueCycle, if_neg hne, enqueue, if_neg (not_or.mpr ⟨hne, Nat.not_lt.mpr hmax⟩), if_pos hfull.ge]

/-- Settles O51, by whether a frame is left and whether there is room for it. -/
theorem pcyQueuesTheBlock : Obligations.PcyQueuesTheBlock := by
  intro s tick raw r d hs hring hfmt hfits os y n fb
  have hactive := activeFormat_eq_some.mpr hfmt
  obtain ⟨frame, hframe⟩ : ∃ frame, cycleFrame r (rawBlock s.cfg d raw) s = frame := ⟨_, rfl⟩
  obtain ⟨v, hv⟩ : ∃ v, beforeEnqueue tick r (rawBlock s.cfg d raw) s = v := ⟨_, rfl⟩
  have hq : v.q = s.q := by rw [← hv, beforeEnqueue_q]
  have hcfg : v.cfg = s.cfg := by rw [← hv, beforeEnqueue_cfg]
  have hlen : frame.length = n := by
    rw [← hframe, length_cycleFrame, rawBlock, List.length_map]
  have hmax : frame.length ≤ v.cfg.frameMax := by
    rw [hlen, hcfg]
    exact le_trans (by simp only [n]; split_ifs <;> omega) hfits
  have hpairs (j : Nat) (hj : j < frame.length) : frame[j]? = y.2[j]? := by
    rw [← hframe, cycleFrame_eq] at hj ⊢
    exact getElem?_backpressure hj
  have hends {st : Status} {u : State} (hu : enqueueCycle r frame v = .ok (st, u)) :=
    pcy_ends (st := st) (u := u) hs hactive hfits (by rw [hframe, hv, hu])
  have hne (hpos : 0 < n) : frame ≠ [] := fun hnil => by simp [hnil] at hlen; omega
  obtain hzero | hpos := Nat.eq_zero_or_pos n
  · have hnil : frame = [] := List.length_eq_zero_iff.mp (hlen.trans hzero)
    obtain ⟨t, hexec, htq, hend, hfv, hos, hfb, hreset⟩ := hends (st := .ok) (u := v) (by rw [enqueueCycle, if_pos hnil])
    obtain ⟨hglitch, hok⟩ := cycleStatus_ok fb.1
    exact ⟨t, _, hexec, hend, hfv, hos, hfb, hreset, by omega, by omega, fun _ => ⟨hglitch, hok, htq.trans hq⟩⟩
  · obtain hroom | hfull := hring.core.occupancy.lt_or_eq
    · have hcore : RingCore v := hring.core.of_sameRing (.of_q hcfg hq)
      obtain ⟨m, hm, hu⟩ := enqueueCycle_of_room hcore r (hne hpos) hmax (by rw [hq, hcfg]; exact hroom)
      obtain ⟨t, hexec, htq, hend, hfv, hos, hfb, hreset⟩ := hends hu
      obtain ⟨hglitch, hok⟩ := cycleStatus_ok fb.1
      obtain ⟨hblock, hother⟩ := slotWriteBlock_read frame hm
      refine ⟨t, _, hexec, hend, hfv, hos, hfb, hreset,
        fun _ _ => ⟨hglitch, hok, ?_, fun i hi => ?_, fun j hj => ?_, fun a ha => ?_, ?_⟩, by omega, by omega⟩
      · rw [htq, ← hlen, ← hq]
        exact Queue.header_set_same _ _ (by rw [hcore.headers]; exact hcore.writeCursor)
      · rw [htq, ← hq]
        exact Queue.header_set_other v.q _ (by rw [hq]; exact hi)
      · have hread := hblock j (by omega)
        rw [hq, hcfg, Nat.zero_add, slotCell, hpairs j (by omega)] at hread
        rw [htq]
        exact hread
      · have hread := hother a fun k hk => by
          rw [hq, hcfg, Nat.zero_add, slotCell]
          exact ha k (by omega)
        rw [htq, ← hq]
        exact hread
      · simp [htq, hq, hcfg, hlen]
    · obtain ⟨t, hexec, htq, hend, hfv, hos, hfb, hreset⟩ :=
        hends (enqueueCycle_of_full r (hne hpos) hmax (by rw [hq, hcfg]; exact hfull))
      exact ⟨t, _, hexec, hend, hfv, hos, hfb, hreset, by omega, fun _ _ => ⟨rfl, htq.trans hq⟩, by omega⟩

end Sys2Proof.Machine
end

section
/-! A producer cycle as the operations it is built from (spec/45_pipeline.md section 3). -/

namespace Sys2Proof.Machine

/-! Operations of the producer one after another. -/

/-- The operations answer a next state of the producer's and write nothing outside `written`. -/
def Runs (is : List Instr) (written : List Item) (s t : State) : Prop :=
  execAll is s = .next t ∧ Ready .p t ∧ t.cfg = s.cfg ∧ ∀ x, x ∉ written → x.same s t

/-- One operation. -/
theorem Runs.of_ends {i : Instr} {written : List Item} {response : List Word} {stream : List Emission} {draws : Nat}
    {s t : State} (hs : Ready .p s) (hexec : exec i s = .next t) (h : Ends written response stream draws s t)
    (hlife : Item.life ∉ written) : Runs [i] written s t :=
  ⟨by rw [execAll_cons hexec]; rfl, h.ready hlife hs, h.configuration, h.rest⟩

/-- One sequence after another. -/
theorem Runs.append {is js : List Instr} {written written' : List Item} {s t u : State} (h : Runs is written s t)
    (h' : Runs js written' t u) : Runs (is ++ js) (written ++ written') s u := by
  obtain ⟨hexec, -, hcfg, hrest⟩ := h
  obtain ⟨hexec', hready, hcfg', hrest'⟩ := h'
  refine ⟨by rw [execAll_append, hexec]; exact hexec', hready, hcfg'.trans hcfg, fun x hx => ?_⟩
  rw [List.mem_append, not_or] at hx
  exact Item.same_trans (hrest x hx.1) (hrest' x hx.2)

/-- The producer goes on. -/
theorem Runs.ready {is : List Instr} {written : List Item} {s t : State} (h : Runs is written s t) : Ready .p t := h.2.1

/-- The configuration stays. -/
theorem Runs.configuration {is : List Instr} {written : List Item} {s t : State} (h : Runs is written s t) :
    t.cfg = s.cfg := h.2.2.1

/-- What is not written stays. -/
theorem Runs.rest {is : List Instr} {written : List Item} {s t : State} (h : Runs is written s t) (x : Item)
    (hx : x ∉ written) : x.same s t := h.2.2.2 x hx

/-- A footprint may be said more coarsely. -/
theorem Runs.mono {is : List Instr} {written written' : List Item} {s t : State} (h : Runs is written s t)
    (hsub : written ⊆ written') : Runs is written' s t := by
  obtain ⟨hexec, hready, hcfg, hrest⟩ := h
  exact ⟨hexec, hready, hcfg, fun x hx => hrest x fun hmem => hx (hsub hmem)⟩

/-- The feedback registers, where none is written. -/
theorem Runs.fb_eq {is : List Instr} {written : List Item} {s t : State} (h : Runs is written s t)
    (hvalue : Item.feedbackValue ∉ written) (hticks : Item.feedbackTicks ∉ written)
    (hbounds : Item.feedbackBounds ∉ written) : t.fb = s.fb := by
  obtain ⟨-, -, -, hrest⟩ := h
  have h1 : t.fb.value = s.fb.value := hrest _ hvalue
  obtain ⟨h2, h3⟩ := hrest _ hticks
  obtain ⟨h4, h5, h6, h7, h8⟩ := hrest _ hbounds
  cases ht : t.fb
  cases hs : s.fb
  simp_all

/-- The cascade, where no stage is written. -/
theorem Runs.os_eq {is : List Instr} {written : List Item} {s t : State} (h : Runs is written s t)
    (hstage : ∀ st, Item.stage st ∉ written) : t.os = s.os :=
  PerStage.ext_get fun st => h.2.2.2 _ (hstage st)

/-- The queue, where none of it is written. -/
theorem Runs.q_eq {is : List Instr} {written : List Item} {s t : State} (h : Runs is written s t)
    (hnone : ∀ x ∈ queueItems, x ∉ written) : t.q = s.q :=
  q_eq_of_rest h.2.2.2 (hnone _ (by decide)) (hnone _ (by decide)) (hnone _ (by decide)) (hnone _ (by decide))
    (hnone _ (by decide))

/-! Line 1 as operations. -/

/-- `FVT`, then `OSZ` and `FBC` when the signal was set. -/
def signalOps (s : State) : List Instr := [.fvt] ++ if s.fv.updated then [.osz, .fbc] else []

/-- What those operations may write. -/
def signalItems : List Item :=
  [.fvUpdated, .stage .s0, .stage .s1, .stage .s2, .feedbackValue, .feedbackTicks, .feedbackBounds]

/-- How `FBC` ends under a valid format, for a sequence. -/
theorem fbc_ends {s : State} {r : Rate} {d : Depth} (hs : Ready .p s) (hactive : activeFormat s = some (r, d)) :
    ∃ t, exec .fbc s = .next t ∧ t.fb = (seedFeedback r d s).fb ∧
      Ends [.feedbackValue, .feedbackTicks, .feedbackBounds] [statusWord .ok 0] [] 0 s t := by
  have hexec := exec_fbc_ready hs
  rw [configureFeedback_active hactive] at hexec
  exact ⟨_, hexec, by simp, (seedFeedback_touches r d s).respond (Reply.words_plain .ok [])⟩

/-- The registers after `FBC` are read off the configuration. -/
theorem seedFeedback_fb_congr {s t : State} (r : Rate) (d : Depth) (hcfg : t.cfg = s.cfg) :
    (seedFeedback r d t).fb = (seedFeedback r d s).fb := by
  simp [seedFeedback, hcfg]

/-- The format in force, where the format is not written. -/
theorem Runs.activeFormat_eq {is : List Instr} {written : List Item} {s t : State} (h : Runs is written s t)
    (hfmt : Item.fmt ∉ written) : activeFormat t = activeFormat s := by
  have hsame : t.fmt = s.fmt := h.2.2.2 _ hfmt
  rw [activeFormat, activeFormat, hsame]

theorem seeded_cfg (r : Rate) (d : Depth) (s : State) : (seeded r d s).cfg = s.cfg := by
  rw [seeded]
  split_ifs <;> rfl

theorem seeded_fmt (r : Rate) (d : Depth) (s : State) : (seeded r d s).fmt = s.fmt := by
  rw [seeded]
  split_ifs <;> rfl

/-- Line 1 of a producer cycle, as operations. -/
theorem signalOps_runs {s : State} {r : Rate} {d : Depth} (hs : Ready .p s) (hactive : activeFormat s = some (r, d)) :
    ∃ t, Runs (signalOps s) signalItems s t ∧ t.fv.updated = false ∧
      t.os = (if s.fv.updated then cascadeZero s.cfg else s.os) ∧ t.fb = (seeded r d s).fb := by
  obtain ⟨t1, exec1, htaken, ends1, -⟩ := fvt_ends hs
  have run1 := Runs.of_ends hs exec1 ends1 (by decide)
  cases hset : s.fv.updated with
  | false =>
    have hops : signalOps s = [.fvt] := by simp [signalOps, hset]
    have hseeded : seeded r d s = s := by simp [seeded, hset]
    rw [hops, hseeded]
    exact ⟨t1, run1.mono (by decide), htaken, run1.os_eq (by simp), run1.fb_eq (by decide) (by decide) (by decide)⟩
  | true =>
    have hops : signalOps s = [.fvt] ++ ([.osz] ++ [.fbc]) := by simp [signalOps, hset]
    have hseeded : seeded r d s = seedFeedback r d s := by simp [seeded, hset]
    obtain ⟨t2, exec2, hos, ends2⟩ := osz_ends run1.ready
    have run2 := Runs.of_ends run1.ready exec2 ends2 (by decide)
    have hactive2 : activeFormat t2 = some (r, d) := by
      rw [run2.activeFormat_eq (by decide), run1.activeFormat_eq (by decide), hactive]
    obtain ⟨t3, exec3, hfb, ends3⟩ := fbc_ends run2.ready hactive2
    have run3 := Runs.of_ends run2.ready exec3 ends3 (by decide)
    rw [hops, hseeded]
    refine ⟨t3, (run1.append (run2.append run3)).mono (by decide), ?_, ?_, ?_⟩
    · exact (run3.rest .fvUpdated (by decide)).trans ((run2.rest .fvUpdated (by decide)).trans htaken)
    · rw [run3.os_eq (by simp), hos, run1.configuration, if_pos rfl]
    · rw [hfb, seedFeedback_fb_congr r d (run2.configuration.trans run1.configuration)]

/-! Lines 4 to 8 as operations. -/

/-- `QOC`, `OSA`, `FBU` and `QEN`. -/
def blockOps (tick : Word) (r : Rate) (x y : Block) : List Instr :=
  [.qoc] ++ ([.osa r.code x] ++ ([.fbu tick] ++ [.qen r.family y]))

/-- What those operations may write. -/
def blockItems : List Item :=
  [.stage .s0, .stage .s1, .stage .s2, .feedbackValue, .feedbackTicks, .slots, .writeCursor, .occupancy, .total]

/-- An enqueue reads the configuration and the queue only. -/
theorem enqueue_congr {s t u : State} {g : Family} {b : Block} {st : Status} (hcfg : t.cfg = s.cfg) (hq : t.q = s.q)
    (h : enqueue g b s = .ok (st, u)) : ∃ v, enqueue g b t = .ok (st, v) ∧ v.q = u.q := by
  simp only [enqueue, queueFull, hcfg, hq] at h ⊢
  split_ifs at h ⊢
  · cases h
    exact ⟨t, rfl, hq⟩
  · cases h
    exact ⟨t, rfl, hq⟩
  · split at h
    · cases h
    · cases h
      exact ⟨_, rfl, by simp [writeHeader, commitEnqueue]⟩

/-- `QEN` with what its enqueue answers. -/
theorem qen_ends {s u : State} {g : Family} {b : Block} {st : Status} (hs : Ready .p s)
    (h : enqueue g b s = .ok (st, u)) : ∃ t, exec (.qen g b) s = .next t ∧ t.q = u.q ∧
      Ends [.slots, .writeCursor, .occupancy, .total] [statusWord st 0] [] 0 s t := by
  refine ⟨u.respond (Reply.plain st []), ?_, by simp, (enqueue_touches h).respond (Reply.words_plain st [])⟩
  rw [exec, execQen, State.gate_ready hs (by simp [ports]), h]
  rfl

/-- `FBU` with what its body does to the registers. -/
theorem fbu_ends {s : State} (hs : Ready .p s) (tick : Word) : ∃ t response, exec (.fbu tick) s = .next t ∧
    t.fb = (updateFeedback tick s.q.total s).2.fb ∧ Ends [.feedbackValue, .feedbackTicks] response [] 0 s t :=
  ⟨_, _, exec_fbu_ready hs tick, by simp, (updateFeedback_touches tick s.q.total s).respond rfl⟩

/-- Lines 4 to 8 of a producer cycle, as operations. -/
theorem blockOps_runs {s u : State} {r : Rate} {x y : Block} {st : Status} (hs : Ready .p s) (tick : Word)
    (hfits : x.length * 2 ^ r.stages ≤ s.cfg.frameMax) (henqueue : enqueue r.family y s = .ok (st, u)) :
    ∃ t, Runs (blockOps tick r x y) blockItems s t ∧
      t.os = (cascadeBlock s.cfg s.os (Stage.firstStages r.stages) x).1 ∧
      t.fb = (updateFeedback tick s.q.total s).2.fb ∧ t.q = u.q := by
  obtain ⟨t1, exec1, ends1⟩ := qoc_ends (.inl hs)
  have run1 := Runs.of_ends hs exec1 ends1 (by decide)
  obtain ⟨t2, exec2, hos, ends2⟩ := osa_ends run1.ready (r := r) (b := x) (by rw [run1.configuration]; exact hfits)
  have run2 := (Runs.of_ends run1.ready exec2 ends2 (by simp)).mono (firstStages_items_subset r)
  obtain ⟨t3, response, exec3, hfb, ends3⟩ := fbu_ends run2.ready tick
  have run3 := Runs.of_ends run2.ready exec3 ends3 (by decide)
  have run := run1.append (run2.append run3)
  obtain ⟨v, hv, hvq⟩ := enqueue_congr run.configuration (run.q_eq (by decide)) henqueue
  obtain ⟨t4, exec4, hq, ends4⟩ := qen_ends run.ready hv
  have run4 := Runs.of_ends run.ready exec4 ends4 (by decide)
  refine ⟨t4, (run1.append (run2.append (run3.append run4))).mono (by decide), ?_, ?_, hq.trans hvq⟩
  · rw [run4.os_eq (by simp), run3.os_eq (by simp), hos, run1.configuration, run1.os_eq (by simp)]
  · have run12 := run1.append run2
    rw [run4.fb_eq (by decide) (by decide) (by decide), hfb, run12.q_eq (by decide)]
    exact (updateFeedback_congr tick s.q.total run12.configuration (run12.rest .fmt (by decide))
      (run12.fb_eq (by decide) (by decide) (by decide))).2

/-! The cycle and its parts. -/

/-- An enqueue that answers is also line 8 of a cycle, up to the status of an empty frame. -/
theorem enqueueCycle_of_enqueue {s u : State} {rate : Rate} {y : Block} {st : Status}
    (h : enqueue rate.family y s = .ok (st, u)) : ∃ st', enqueueCycle rate y s = .ok (st', u) := by
  by_cases hnil : y = []
  · rw [enqueue, if_pos (.inl hnil)] at h
    cases h
    exact ⟨.ok, if_pos hnil⟩
  · exact ⟨st, by rw [enqueueCycle, if_neg hnil, h]⟩

/-- Two states that agree with a third on a piece of state agree on it. -/
theorem Item.same_of_same {x : Item} {s t u : State} (h : x.same s t) (h' : x.same s u) : x.same u t := by
  cases x <;> simp only [Item.same] at h h' ⊢ <;> simp [h, h']

/-- What a producer cycle may write is the request and what its parts may write. -/
theorem mayWrite_pcy_subset (tick : Word) (raw : Block) :
    mayWrite (.pcy tick raw) ⊆ .resetRequest :: (signalItems ++ blockItems) := by
  change mayWrite (.pcy 0 []) ⊆ _
  decide

/-- Settles O52: line 1 and lines 4 to 8, each as operations. -/
theorem pcyIsItsParts : Obligations.PcyIsItsParts := by
  intro s tick raw r d hs hring hfmt hfits x os y
  have hactive := activeFormat_eq_some.mpr hfmt
  have hlen : x.length = raw.length := List.length_map _
  obtain ⟨w, hsignal, htaken, hos, hfb⟩ := signalOps_runs hs hactive
  have hwq : w.q = s.q := hsignal.q_eq (by decide)
  have henqueue : ∃ st v, enqueue r.family y w = .ok (st, v) := by
    obtain ⟨st, -, he⟩ | ⟨v, -, -, -, -, he⟩ :=
      enqueue_cases_of_ring (hring.core.of_sameRing (.of_q hsignal.configuration hwq)) r.family y
    · exact ⟨_, _, he⟩
    · exact ⟨_, _, he⟩
  obtain ⟨st, v, hv⟩ := henqueue
  obtain ⟨u, hblock, huos, hufb, huq⟩ := blockOps_runs (x := x) hsignal.ready tick
    (by rw [hsignal.configuration, hlen]; exact hfits) hv
  obtain ⟨v', hv', hvq⟩ := enqueue_congr (t := beforeEnqueue tick r x s)
    (by rw [hsignal.configuration, beforeEnqueue_cfg]) (by rw [hwq, beforeEnqueue_q]) hv
  obtain ⟨st', hcycle⟩ := enqueueCycle_of_enqueue hv'
  rw [show y = cycleFrame r x s from (cycleFrame_eq r x s).symm] at hcycle
  obtain ⟨t, hexec, htq, hends, hfv, htos, htfb, hreset⟩ := pcy_ends hs hactive hfits hcycle
  have hrun := hsignal.append hblock
  have hq : t.q = u.q := by rw [htq, hvq, huq]
  have hcascade : t.os = u.os := by rw [htos, huos, hsignal.configuration, hos]
  have hfeedback : t.fb = u.fb := by
    rw [htfb, hufb, hwq]
    exact (updateFeedback_congr tick s.q.total (hsignal.configuration.trans (seeded_cfg r d s).symm)
      (Eq.trans (hsignal.rest .fmt (by decide)) (seeded_fmt r d s).symm) hfb).2.symm
  have hupdated : t.fv.updated = u.fv.updated :=
    hfv.trans (Eq.trans (hblock.rest .fvUpdated (by decide)) htaken).symm
  refine ⟨t, u, hexec, ?_, fun item hitem => ?_, hreset, hrun.rest .resetRequest (by decide)⟩
  · have hops := hrun.1
    simpa [signalOps, blockOps] using hops
  · by_cases hmem : item ∈ signalItems ++ blockItems
    · simp only [signalItems, blockItems, List.mem_append, List.mem_cons, List.not_mem_nil, or_false] at hmem
      rcases hmem with (rfl | rfl | rfl | rfl | rfl | rfl | rfl) | rfl | rfl | rfl | rfl | rfl | rfl | rfl | rfl | rfl <;>
        simp [Item.same, hq, hcascade, hfeedback, hupdated]
    · refine Item.same_of_same (hends.rest item fun hpcy => ?_) (hrun.rest item hmem)
      exact (List.mem_cons.mp (mayWrite_pcy_subset tick raw hpcy)).elim hitem hmem

end Sys2Proof.Machine
end

section
/-! The consumer cycle (spec/45_pipeline.md section 4). -/

namespace Sys2Proof.Machine

/-! `DSE` on a block, pair by pair. -/

/-- The two states encode alike: configuration, modulator and count of free values drawn. -/
structure SameEncoder (s t : State) : Prop where
  configuration : t.cfg = s.cfg
  modulator : t.ds = s.ds
  draws : t.freeCount = s.freeCount

theorem SameEncoder.trans {s t u : State} (h : SameEncoder s t) (h' : SameEncoder t u) : SameEncoder s u :=
  ⟨h'.configuration.trans h.configuration, h'.modulator.trans h.modulator, h'.draws.trans h.draws⟩

/-- States that encode alike answer a pair alike and go on alike. -/
theorem SameEncoder.encodePair {s t : State} (h : SameEncoder s t) (p : Pair) :
    (Machine.encodePair p t).1 = (Machine.encodePair p s).1 ∧
    SameEncoder (Machine.encodePair p s).2 (Machine.encodePair p t).2 := by
  obtain ⟨hcfg, hds, hdraws⟩ := h
  simp only [Machine.encodePair, hcfg, hds, freeWords, hdraws]
  split
  · split
    · exact ⟨rfl, hcfg, by simp [loseModulator, hcfg, hdraws], by simp [loseModulator, hdraws]⟩
    · exact ⟨rfl, hcfg, by simp [storeChannels, hds], hdraws⟩
  · exact ⟨rfl, hcfg, by simp [loseModulator, hcfg, hdraws], by simp [loseModulator, hdraws]⟩
  · exact ⟨rfl, hcfg, by simp [loseModulator, hcfg, hdraws], by simp [loseModulator, hdraws]⟩

/-- What a sequence of `DSE` answers when every pair gives words. -/
def dseAnswers (ws : List (Word × Word)) : List Word := ws.flatMap fun w => [statusWord .ok 0, w.1, w.2]

theorem dseAnswers_cons (w : Word × Word) (ws : List (Word × Word)) :
    dseAnswers (w :: ws) = statusWord .ok 0 :: w.1 :: w.2 :: dseAnswers ws := rfl

/-- What an operation of the `C` port adds to that port's output. -/
theorem Ends.portC_output {written : List Item} {response : List Word} {stream : List Emission} {draws : Nat}
    {s t : State} (h : Ends written response stream draws s t) (hs : s.issuer = .c) :
    t.portC.output = s.portC.output ++ response := by
  have houtput := h.output
  rw [hs] at houtput
  exact houtput

/-- One `DSE`, by what its body answers. -/
theorem exec_dse_takes {v : State} (hv : Ready .c v) (p : Pair) :
    ∃ u, exec (.dse p.l p.r) v = .next u ∧ Ready .c u ∧ SameEncoder (encodePair p v).2 u ∧
      (∀ w, (encodePair p v).1 = some w → u.portC.output = v.portC.output ++ [statusWord .ok 0, w.1, w.2]) ∧
      ((encodePair p v).1 = none →
        ∃ rest, u.portC.output = v.portC.output ++ statusWord .dsOverflow 0 :: rest) := by
  obtain ⟨k, htouches⟩ := encodePair_touches p v
  cases hp : encodePair p v with
  | mk o u =>
    rw [hp] at htouches
    cases o with
    | some w =>
      have hends := htouches.respond (Reply.words_plain .ok [w.1, w.2])
      refine ⟨_, exec_dse_words hv hp, hends.ready (by decide) hv, ⟨by simp, by simp, by simp⟩, fun w' hw => ?_, by simp⟩
      cases hw
      exact hends.portC_output hv.1
    | none =>
      have hends := htouches.respond (Reply.words_plain .dsOverflow [(freeWords v).1, (freeWords v).2])
      exact ⟨_, exec_dse_overflow hv hp, hends.ready (by decide) hv, ⟨by simp, by simp, by simp⟩, by simp,
        fun _ => ⟨_, hends.portC_output hv.1⟩⟩

/-- A sequence of `DSE` goes through and adds to the output. -/
theorem execAll_dse (b : Block) : ∀ {v : State}, Ready .c v →
    ∃ u answers, execAll (b.map fun p => .dse p.l p.r) v = .next u ∧ u.portC.output = v.portC.output ++ answers := by
  induction b with
  | nil => exact fun {v} _ => ⟨v, [], rfl, (List.append_nil _).symm⟩
  | cons p b ih =>
    intro v hv
    obtain ⟨v1, hexec, hready, -, hwords, hnone⟩ := exec_dse_takes hv p
    obtain ⟨u, answers, hrest, houtput⟩ := ih hready
    refine ⟨u, ?_⟩
    rw [List.map_cons, execAll_cons hexec]
    cases hp : (encodePair p v).1 with
    | some w => exact ⟨_, hrest, by rw [houtput, hwords w hp, List.append_assoc]⟩
    | none =>
      obtain ⟨rest, hfirst⟩ := hnone hp
      exact ⟨_, hrest, by rw [houtput, hfirst, List.append_assoc]⟩

/-- The first pair of a block overflows, or the rest follows. -/
theorem encodeBlock_cons_cases (p : Pair) (b : Block) (s : State) :
    ((encodePair p s).1 = none ∧ encodeBlock (p :: b) s = (none, (encodePair p s).2)) ∨
    ∃ w, (encodePair p s).1 = some w ∧ encodeBlock (p :: b) s =
      ((encodeBlock b (encodePair p s).2).1.map (w :: ·), (encodeBlock b (encodePair p s).2).2) := by
  simp only [encodeBlock]
  cases hp : encodePair p s with
  | mk o u =>
    cases o with
    | none => exact .inl ⟨rfl, rfl⟩
    | some w =>
      refine .inr ⟨w, rfl, ?_⟩
      cases hb : encodeBlock b u with
      | mk o' u' => cases o' <;> simp [hb]

/-- A sequence of `DSE` on the pairs of a block that encodes without an overflow. -/
theorem execAll_dse_words (b : Block) : ∀ {s u v : State} {ws : List (Word × Word)}, Ready .c v → SameEncoder s v →
    encodeBlock b s = (some ws, u) →
    ∃ t, execAll (b.map fun p => .dse p.l p.r) v = .next t ∧ SameEncoder u t ∧
      t.portC.output = v.portC.output ++ dseAnswers ws := by
  induction b with
  | nil =>
    intro s u v ws hv hsame h
    cases h
    exact ⟨v, rfl, hsame, (List.append_nil _).symm⟩
  | cons p b ih =>
    intro s u v ws hv hsame h
    obtain ⟨v1, hexec, hready, hnext, hwords, -⟩ := exec_dse_takes hv p
    obtain ⟨hpair, hsame'⟩ := hsame.encodePair p
    obtain ⟨-, heq⟩ | ⟨w, hw, heq⟩ := encodeBlock_cons_cases p b s
    · cases heq.symm.trans h
    · cases hb : encodeBlock b (encodePair p s).2 with
      | mk o u' =>
        obtain ⟨ws', rfl⟩ : ∃ ws', o = some ws' := by
          cases o with
          | none => simp [heq, hb] at h
          | some ws' => exact ⟨ws', rfl⟩
        rw [heq, hb] at h
        cases h
        obtain ⟨t, hrest, hend, houtput⟩ := ih hready (hsame'.trans hnext) hb
        refine ⟨t, by rw [List.map_cons, execAll_cons hexec, hrest], hend, ?_⟩
        rw [houtput, hwords w (hpair.trans hw), dseAnswers_cons, List.append_assoc]
        rfl

/-- A sequence of `DSE` on the pairs of a block that an overflow cuts off does not answer as one without. -/
theorem execAll_dse_overflow (b : Block) : ∀ {s u v : State}, Ready .c v → SameEncoder s v →
    encodeBlock b s = (none, u) →
    ∃ t answers, execAll (b.map fun p => .dse p.l p.r) v = .next t ∧ t.portC.output = v.portC.output ++ answers ∧
      ∀ ws : List (Word × Word), ws.length = b.length → answers ≠ dseAnswers ws := by
  induction b with
  | nil => exact fun _ _ h => nomatch h
  | cons p b ih =>
    intro s u v hv hsame h
    obtain ⟨v1, hexec, hready, hnext, hwords, hnone⟩ := exec_dse_takes hv p
    obtain ⟨hpair, hsame'⟩ := hsame.encodePair p
    have hlonger (ws : List (Word × Word)) (hlen : ws.length = (p :: b).length) :
        ∃ w ws', ws = w :: ws' ∧ ws'.length = b.length := by
      obtain _ | ⟨w, ws'⟩ := ws
      · simp at hlen
      · exact ⟨w, ws', rfl, by simpa using hlen⟩
    obtain ⟨hfirst, -⟩ | ⟨w, hw, heq⟩ := encodeBlock_cons_cases p b s
    · obtain ⟨rest, houtput⟩ := hnone (hpair.trans hfirst)
      obtain ⟨t, answers, hrest, houtput'⟩ := execAll_dse b hready
      refine ⟨t, statusWord .dsOverflow 0 :: rest ++ answers, by rw [List.map_cons, execAll_cons hexec, hrest],
        by rw [houtput', houtput, List.append_assoc], fun ws hlen heq => ?_⟩
      obtain ⟨w, ws', rfl, -⟩ := hlonger ws hlen
      rw [dseAnswers_cons, List.cons_append] at heq
      exact absurd (List.cons.inj heq).1 (by decide)
    · cases hb : encodeBlock b (encodePair p s).2 with
      | mk o u' =>
        obtain rfl : o = none := by
          cases o with
          | none => rfl
          | some ws' => simp [heq, hb] at h
        obtain ⟨t, answers, hrest, houtput, hne⟩ := ih hready (hsame'.trans hnext) hb
        refine ⟨t, [statusWord .ok 0, w.1, w.2] ++ answers, by rw [List.map_cons, execAll_cons hexec, hrest],
          by rw [houtput, hwords w (hpair.trans hw), List.append_assoc], fun ws hlen heq => ?_⟩
        obtain ⟨w', ws', rfl, hlen'⟩ := hlonger ws hlen
        rw [dseAnswers_cons] at heq
        simp only [List.cons_append, List.nil_append, List.cons.injEq] at heq
        exact hne ws' hlen' heq.2.2.2

/-- An overflow loses the modulator. -/
theorem lost_of_encodeBlock (b : Block) : ∀ {s u : State}, encodeBlock b s = (none, u) → u.ds.lost = true := by
  induction b with
  | nil => exact fun h => nomatch h
  | cons p b ih =>
    intro s u h
    obtain ⟨hfirst, heq⟩ | ⟨w, hw, heq⟩ := encodeBlock_cons_cases p b s
    · obtain rfl := (Prod.mk.inj (heq.symm.trans h)).2
      obtain ⟨_, _, _, _, -, -, -, hp⟩ | ⟨-, -, -, hp⟩ | ⟨-, hp⟩ := encodePair_cases p s
      · simp [hp] at hfirst
      · simp [hp] at hfirst
      · rw [hp]
        rfl
    · obtain ⟨hmap, rfl⟩ := Prod.mk.inj (heq.symm.trans h)
      exact ih (Prod.ext (Option.map_eq_none_iff.mp hmap) rfl)

/-! A cycle that encodes. -/

/-- A `DSZ` where one is asked for. -/
theorem execAll_dsz {s : State} (hs : Ready .c s) (reset : Bool) :
    ∃ t, execAll (if reset then [.dsz] else []) s = .next t ∧ Ready .c t ∧ t.cfg = s.cfg ∧
      t.ds = (if reset then Modulator.zero s.cfg else s.ds) ∧ t.freeCount = s.freeCount ∧
      t.portC.output = s.portC.output ++ if reset then [statusWord .ok 0] else [] := by
  cases reset with
  | false => exact ⟨s, rfl, hs, rfl, rfl, rfl, (List.append_nil _).symm⟩
  | true =>
    have hends := (zeroModulator_touches s).respond (Reply.words_plain .ok [])
    exact ⟨_, execAll_cons (exec_dsz_ready hs) [], hends.ready (by decide) hs, hends.configuration, by simp,
      hends.draws, hends.portC_output hs.1⟩

/-- A consumer cycle that encodes from the modulator that line 1 left. -/
theorem cycleEncodes_of_encode {s v : State} {written : List Item} {reset : Bool} (hs : Ready .c s)
    (htouches : Touches written [] 0 s v) (hmodulator : Item.modulator ∈ written)
    (hds : v.ds = if reset then Modulator.zero s.cfg else s.ds) (st : Status) (b : Block) :
    ∃ t, encodeAndFinish st b v = .next t ∧ CycleEncodes written st v.family reset b s t ∧
      ∀ x : Item, x ≠ .modulator → x.same v t := by
  obtain ⟨s1, hreset, hready, hcfg1, hds1, hdraws1, houtput1⟩ := execAll_dsz hs reset
  have hsame : SameEncoder v s1 :=
    ⟨hcfg1.trans htouches.configuration.symm, hds1.trans hds.symm, hdraws1.trans htouches.draws.symm⟩
  have hops (u : State) (h : execAll (b.map fun p => .dse p.l p.r) s1 = .next u) :
      execAll (encodeOps reset b) s = .next u := by
    rw [encodeOps, execAll_append, hreset]
    exact h
  obtain ⟨k, hk⟩ := encodeBlock_touches b v
  have hwritten : written ++ [.modulator] ⊆ written := by simpa using hmodulator
  have hkeep (t : State) {response : List Word} {stream : List Emission} {draws : Nat}
      (h : Ends [.modulator] response stream draws v t) (x : Item) (hx : x ≠ .modulator) : x.same v t :=
    h.rest x (by simpa using hx)
  cases hb : encodeBlock b v with
  | mk o w =>
    rw [hb] at hk
    cases o with
    | some ws =>
      obtain ⟨u, hexec, hend, houtput⟩ := execAll_dse_words b hready hsame hb
      refine ⟨finishEncoding st ws w, by rw [encodeAndFinish, hb], ⟨u, hops u hexec, .inl ⟨ws, encodeBlock_length hb, ?_, ?_, ?_⟩⟩,
        hkeep _ (finishEncoding_ends hk st ws)⟩
      · rw [houtput, houtput1, List.append_assoc]
        rfl
      · simpa [finishEncoding] using hend.modulator.symm
      · have hends := finishEncoding_ends ((htouches.trans hk).mono hwritten) st ws
        have hfamily : w.family = v.family := hk.rest .family (by decide)
        have hdraws : u.freeCount - s.freeCount = 0 + k := by
          rw [hend.draws, hk.draws, htouches.draws]
          omega
        rwa [hfamily, encodeBlock_length hb, ← hdraws] at hends
    | none =>
      obtain ⟨u, answers, hexec, houtput, hne⟩ := execAll_dse_overflow b hready hsame hb
      obtain ⟨stream', hends'⟩ := finishOverflow_ends hk
      obtain ⟨stream, hends⟩ := finishOverflow_ends ((htouches.trans hk).mono hwritten)
      refine ⟨finishOverflow w, by rw [encodeAndFinish, hb], ⟨u, hops u hexec, .inr ⟨fun ws hlen heq => ?_, ?_, _, _, hends⟩⟩,
        hkeep _ hends'⟩
      · rw [houtput, houtput1, List.append_assoc] at heq
        exact hne ws hlen (List.append_cancel_left (List.append_cancel_left heq))
      · simpa [finishOverflow] using lost_of_encodeBlock b hb

/-! Line 1, and what the cycle is past it. -/

/-- What `CCY` does past the checks (R228). -/
theorem exec_ccy_ready {s : State} (hs : Ready .c s) : exec .ccy s = muteAndPlay (honourResetRequest s) := by
  rw [exec, execCcy, State.gate_ready hs (by decide)]

/-- The modulator after line 1. -/
theorem honourResetRequest_ds (s : State) :
    (honourResetRequest s).ds = if s.dsResetReq then Modulator.zero s.cfg else s.ds := by
  rw [honourResetRequest]
  split_ifs <;> rfl

/-- The request after line 1. -/
theorem honourResetRequest_dsResetReq (s : State) : (honourResetRequest s).dsResetReq = false := by
  rw [honourResetRequest]
  split_ifs <;> rfl

@[simp] theorem honourResetRequest_q (s : State) : (honourResetRequest s).q = s.q := by
  rw [honourResetRequest]
  split_ifs <;> rfl

@[simp] theorem honourResetRequest_cfg (s : State) : (honourResetRequest s).cfg = s.cfg :=
  (honourResetRequest_touches s).configuration

@[simp] theorem honourResetRequest_mute (s : State) : (honourResetRequest s).mute = s.mute :=
  (honourResetRequest_touches s).rest .mute (by decide)

@[simp] theorem honourResetRequest_family (s : State) : (honourResetRequest s).family = s.family :=
  (honourResetRequest_touches s).rest .family (by decide)

/-! Silence. -/

/-- A muted cycle below the play threshold encodes silence. -/
theorem exec_ccy_muted {s : State} (hs : Ready .c s) (hmute : s.mute = .muted) (hbelow : s.q.occ < s.cfg.playThreshold) :
    exec .ccy s = encodeAndFinish .qEmpty (silence s.cfg) (honourResetRequest s) := by
  have hbelow' : ¬ (honourResetRequest s).cfg.playThreshold ≤ (honourResetRequest s).q.occ := by
    rw [honourResetRequest_cfg, honourResetRequest_q]
    omega
  have hmute' : (honourResetRequest s).mute ≠ .playing := by simp [hmute]
  rw [exec_ccy_ready hs, muteAndPlay, if_neg fun h => hmute' h.1, if_neg hmute', if_neg hbelow', honourResetRequest_cfg]

/-- A playing cycle that finds the queue empty mutes and encodes silence. -/
theorem exec_ccy_starved {s : State} (hs : Ready .c s) (hmute : s.mute = .playing) (hempty : s.q.occ = 0) :
    exec .ccy s =
      encodeAndFinish .qEmpty (silence s.cfg) (zeroModulator (enterMute (honourResetRequest s))) := by
  have hstarved : entersMute (honourResetRequest s) := by simp [entersMute, hmute, hempty]
  rw [exec_ccy_ready hs, muteAndPlay, if_pos hstarved, honourResetRequest_cfg]

/-- Silence from the reset state of the modulator is mid-scale and leaves it. -/
theorem encodeBlock_silence {s : State} (hpos : 1 ≤ s.cfg.dsW) (hle : s.cfg.dsW ≤ s.cfg.dsInBits)
    (hds : s.ds = Modulator.zero s.cfg) (n : Nat) : encodeBlock (List.replicate n Pair.zero) s =
      (some (List.replicate n (midWord s.cfg, midWord s.cfg)), s) := by
  induction n with
  | zero => rfl
  | succ n ih => simp only [List.replicate_succ, encodeBlock, encodePair_zero hpos hle hds, ih]

/-- Equal word pairs as words. -/
theorem pairWords_replicate (n : Nat) (w : Word) : pairWords (List.replicate n (w, w)) = List.replicate (2 * n) w := by
  induction n with
  | zero => rfl
  | succ n ih => rw [List.replicate_succ, pairWords, ih, Nat.mul_succ, List.replicate_succ, List.replicate_succ]

/-- A cycle of silence from the reset state of the modulator. -/
theorem silence_ends {s v : State} {written : List Item} (hok : configOk s.cfg = true)
    (htouches : Touches written [] 0 s v) (hds : v.ds = Modulator.zero s.cfg) (hfamily : v.family = s.family) :
    ∃ t, encodeAndFinish .qEmpty (silence s.cfg) v = .next t ∧ t.ds = v.ds ∧ t.dsResetReq = v.dsResetReq ∧
      t.mute = v.mute ∧
      Ends written (statusWord .qEmpty s.cfg.silenceLen :: List.replicate (2 * s.cfg.silenceLen) (midWord s.cfg))
        (List.replicate s.cfg.silenceLen ⟨midWord s.cfg, midWord s.cfg, s.family⟩) 0 s t := by
  obtain ⟨⟨hfour, hsix⟩, -, -, hin⟩ := encoderParameters_of_configOk hok
  have hcfg := htouches.configuration
  have hencode := encodeBlock_silence (s := v) (by rw [hcfg]; omega) (by rw [hcfg]; omega) (by rw [hcfg, hds])
    s.cfg.silenceLen
  have hends := finishEncoding_ends htouches .qEmpty
    (List.replicate s.cfg.silenceLen (midWord s.cfg, midWord s.cfg))
  rw [hcfg] at hencode
  rw [List.length_replicate, pairWords_replicate, List.map_replicate, hfamily] at hends
  exact ⟨_, by rw [encodeAndFinish, silence, hencode], by simp [finishEncoding], by simp [finishEncoding],
    by simp [finishEncoding], hends⟩

/-- Entering `MUTED` with an empty queue leaves the queue. -/
theorem enterMute_of_empty {s : State} (hs : RingCore s) (hempty : s.q.occ = 0) :
    enterMute s = { s with mute := .muted } := by
  have hcursors : s.q.rc = s.q.wc := by
    rw [hs.cursors, hempty, Nat.add_zero, Nat.mod_eq_of_lt hs.readCursor]
  have htotal : s.q.total = 0 := by
    rw [hs.total, hempty]
    rfl
  have hq : ({ s.q with rc := s.q.wc, occ := 0, total := 0 } : Queue) = s.q :=
    Queue.eq_of_registers rfl rfl rfl hcursors.symm hempty.symm htotal.symm rfl
  rw [enterMute, hq]

/-- Entering `MUTED` with an empty queue writes the mute register only. -/
theorem enterMute_touches_of_empty {s : State} (hs : RingCore s) (hempty : s.q.occ = 0) :
    Touches [.mute] [] 0 s (enterMute s) := by
  rw [enterMute_of_empty hs hempty]
  refine ⟨fun x hx => ?_, rfl, rfl, rfl, fun _ => rfl, (List.append_nil _).symm, rfl⟩
  cases x <;> simp [Item.same] at hx ⊢

/-- Settles O53: silence as `DSE` does it, and the words of silence. -/
theorem ccyEmitsSilence : Obligations.CcyEmitsSilence := by
  refine ⟨fun s hs hmute hbelow => ?_, fun s hs hok => ⟨fun hmute hbelow hzero => ?_, fun hmute hempty hring => ?_⟩⟩
  · obtain ⟨t, hexec, hcycle, hkeep⟩ := cycleEncodes_of_encode hs (honourResetRequest_touches s) (by decide)
      (honourResetRequest_ds s) .qEmpty (silence s.cfg)
    refine ⟨t, (exec_ccy_muted hs hmute hbelow).trans hexec, ?_, ?_⟩
    · exact Eq.trans (hkeep .resetRequest (by decide)) (honourResetRequest_dsResetReq s)
    · rw [honourResetRequest_family] at hcycle
      exact hcycle
  · have hds : (honourResetRequest s).ds = Modulator.zero s.cfg := by
      rw [honourResetRequest_ds]
      split_ifs with hreq
      · rfl
      · exact hzero.resolve_right hreq
    obtain ⟨t, hexec, htds, hreset, -, hends⟩ := silence_ends hok (honourResetRequest_touches s) hds (by simp)
    exact ⟨t, (exec_ccy_muted hs hmute hbelow).trans hexec, hreset.trans (honourResetRequest_dsResetReq s),
      htds.trans hds, hends⟩
  · have hcore : RingCore (honourResetRequest s) := hring.core.of_sameRing (.of_q (by simp) (by simp))
    have htouches := (((honourResetRequest_touches s).trans
      (enterMute_touches_of_empty hcore (by simpa using hempty))).trans (zeroModulator_touches _)).mono
        (written' := [.resetRequest, .modulator, .mute]) (by decide)
    obtain ⟨t, hexec, htds, hreset, hmuted, hends⟩ := silence_ends hok htouches (by simp) (by simp)
    refine ⟨t, (exec_ccy_starved hs hmute hempty).trans hexec, ?_, ?_, ?_, hends⟩
    · simpa using hreset.trans (honourResetRequest_dsResetReq s)
    · simpa using htds
    · simpa using hmuted

/-! A frame. -/

/-- A cycle that plays dequeues the oldest frame and encodes it. -/
theorem exec_ccy_plays {s : State} (hs : Ready .c s) (ho : 0 < s.q.occ)
    (hplay : s.mute = .playing ∨ s.cfg.playThreshold ≤ s.q.occ) :
    exec .ccy s = playFrame (leaveMute (honourResetRequest s)) := by
  have hstarved : ¬ entersMute (honourResetRequest s) := by
    rintro ⟨-, hempty⟩
    rw [honourResetRequest_q] at hempty
    omega
  rw [exec_ccy_ready hs, muteAndPlay, if_neg hstarved]
  split_ifs with hmute hreached
  · rw [show leaveMute (honourResetRequest s) = honourResetRequest s by rw [leaveMute, ← hmute]]
  · rfl
  · rw [honourResetRequest_mute] at hmute
    rw [honourResetRequest_q, honourResetRequest_cfg] at hreached
    exact absurd hplay (not_or.mpr ⟨hmute, hreached⟩)

/-- Settles O54: the dequeue, then the encoding. -/
theorem ccyPlaysAFrame : Obligations.CcyPlaysAFrame := by
  intro s hs hring ho hplay group
  obtain ⟨v, hv⟩ : ∃ v, leaveMute (honourResetRequest s) = v := ⟨_, rfl⟩
  have hcfg : v.cfg = s.cfg := by rw [← hv]; simp
  have hq : v.q = s.q := by rw [← hv]; simp
  obtain ⟨hempty, -⟩ | ⟨-, b, hheader, hpairs, hdequeue⟩ :=
    dequeue_cases_of_ring (hring.core.of_sameRing (.of_q hcfg hq))
  · rw [hq] at hempty
    omega
  have hbefore : Touches [.resetRequest, .modulator, .mute] [] 0 s v := by
    rw [← hv]
    exact (honourResetRequest_touches s).trans (leaveMute_touches _)
  have htouches := (hbefore.trans (dequeue_touches hdequeue)).mono (written' := mayWrite .ccy) (by decide)
  have hds : v.ds = if s.dsResetReq then Modulator.zero s.cfg else s.ds := by
    rw [← honourResetRequest_ds, ← hv]
    rfl
  obtain ⟨t, hexec, hcycle, hkeep⟩ := cycleEncodes_of_encode hs htouches (by decide) (by simpa using hds) .ok b
  rw [hq] at hheader
  simp only [PrefixStored, slotPair, slotCell, hq, hcfg] at hpairs
  refine ⟨t, b, ?_, (congrArg SlotHeader.len hheader).symm, hpairs, ?_, ?_, ?_, ?_, ?_, ?_, ?_⟩
  · rw [exec_ccy_plays hs ho hplay, hv, playFrame, hdequeue]
    exact hexec
  · exact Eq.trans (hkeep .mute (by decide)) (by simp [← hv])
  · exact Eq.trans (hkeep .resetRequest (by decide)) (by simp [← hv, honourResetRequest_dsResetReq])
  · exact Eq.trans (hkeep .family (by decide)) (by simp [hq, group])
  · exact Eq.trans (hkeep .readCursor (by decide)) (by simp [hq, hcfg])
  · exact Eq.trans (hkeep .occupancy (by decide)) (by simp [hq])
  · exact Eq.trans (hkeep .total (by decide)) (by simp [hq])
  · simpa [hq] using hcycle

end Sys2Proof.Machine
end
